-- ==== Sys2Proof/Word.lean ====
section
/-! DEFINITION. The word types of QRCORE: a codeword is a byte (R27), a command word, RES, STATUS
and every CSR are 32 bits wide (R7, R80). -/

namespace Sys2Proof

/-- A codeword, an element of GF(256): "Codeword: byte (0–255)" (R27). -/
abbrev Byte := BitVec 8

/-- A command word, RES, STATUS, a CSR: 32 bits (R7). -/
abbrev Word := BitVec 32

end Sys2Proof
end

