-- ==== Sys2Proof/Config.lean ====
section
/-! DEFINITION. What an implementation of QRCORE fixes (R5, R6, R7): sizes, the version table and the
three parameters with named alternatives. No value of the spec is free (93, part 1), so there is no
opaque constant here. -/

namespace Sys2Proof.Config

/-- The two readings of the first format copy's cell map (R192, D24). -/
inductive Fmt1Map where
  /-- Bits 0 to 7 down column 8, bits 8 to 14 leftward along row 8. -/
  | std
  /-- The same table with x and y exchanged. -/
  | xpose
  deriving DecidableEq, Repr

/-- FMT1_MAP, the value QRCORE takes (R7, R192). PRESUMED by the spec's own mark I2. Log 9. -/
def fmt1Map : Fmt1Map := .std

/-- The host's treatment of a requested level other than L (R214, D26). -/
inductive LevelPolicy where
  /-- Any level is treated as L. -/
  | normalizeToL
  /-- M, Q and H are refused with UnsupportedLevel. -/
  | reject
  deriving DecidableEq, Repr

/-- LEVEL_POLICY, the value taken (R7, R214). Log 12. -/
def levelPolicy : LevelPolicy := .normalizeToL

/-- CW_SIZE, bytes of the codeword buffer (R7). -/
def cwSize : Nat := 100

/-- E_MAX, the largest ECC length the Reed-Solomon engine accepts (R7). -/
def eMax : Nat := 20

/-- SIZE of version `v`, `17 + 4*v` (R5). -/
def sizeOf (v : Nat) : Nat := 17 + 4 * v

/-- ALIGN_CENTERS(v): `[6, n - 7]` for v = 2, 3, 4 and `[]` for v = 1 (R145). PRESUMED by the spec's
own mark I1. Log 9. -/
def alignCenters (v : Nat) : List Nat :=
  if v = 1 then [] else [6, sizeOf v - 7]

/-- DATA_CW of version `v` (R5). Zero outside 1..4, where the table has no row. -/
def dataCw : Nat → Nat
  | 1 => 19
  | 2 => 34
  | 3 => 55
  | 4 => 80
  | _ => 0

/-- ECC_CW of version `v` (R5). -/
def eccCw : Nat → Nat
  | 1 => 7
  | 2 => 10
  | 3 => 15
  | 4 => 20
  | _ => 0

/-- TOTAL_CW of version `v`, DATA_CW + ECC_CW (R5). -/
def totalCw (v : Nat) : Nat := dataCw v + eccCw v

/-- CAP_BYTES of version `v` (R5). -/
def capBytes : Nat → Nat
  | 1 => 17
  | 2 => 32
  | 3 => 53
  | 4 => 78
  | _ => 0

/-- FREE_MODULES of version `v` (R5). -/
def freeModules : Nat → Nat
  | 1 => 208
  | 2 => 359
  | 3 => 567
  | 4 => 807
  | _ => 0

end Sys2Proof.Config
end

