-- ==== Sys2Proof/Syntax.lean ====
section
/-! DEFINITION. The 21 commands of QRCORE (R83, `spec/opcode_table.json`), one constructor a row, in
the table's order. Operands are unsigned immediates (R82): a field that is used as a number (an
index, a coordinate, a count, a version, a pattern id) is a `Nat` whose range `WellFormed` checks;
a field that is a field element or a codeword is a `Byte`. -/

namespace Sys2Proof

/-- A command (R83). -/
inductive Instr where
  /-- NOP (R200). -/
  | nop
  /-- RESET (R201). -/
  | reset
  /-- CLRERR (R202). -/
  | clrErr
  /-- CSR.RD n, n in field A (R203). -/
  | csrRd (n : Nat)
  /-- GF.EXP i, i in field IMM (R103). -/
  | gfExp (i : Nat)
  /-- GF.LOG a, a in field A (R104). -/
  | gfLog (a : Byte)
  /-- GF.MUL a, b, a in field A, b in field B (R105). -/
  | gfMul (a b : Byte)
  /-- CW.WR idx, val, idx in field A, val in field B (R125). -/
  | cwWr (idx : Nat) (val : Byte)
  /-- CW.RD idx, idx in field A (R126). -/
  | cwRd (idx : Nat)
  /-- RS.GEN e, e in field A (R127). -/
  | rsGen (e : Nat)
  /-- G.RD j, j in field A (R128). -/
  | gRd (j : Nat)
  /-- RS.ENC k, e, k in field A, e in field B (R129). -/
  | rsEnc (k e : Nat)
  /-- MX.BUILD v, v in field A (R140). -/
  | mxBuild (v : Nat)
  /-- MOD.RD x, y, x in field A, y in field B (R149). -/
  | modRd (x y : Nat)
  /-- MX.PLACE m, m in field A (R160). -/
  | mxPlace (m : Nat)
  /-- DL.RD i, i in field IMM (R162). -/
  | dlRd (i : Nat)
  /-- MK.PRED p, x, y, p in field C, x in field A, y in field B (R179). -/
  | mkPred (p x y : Nat)
  /-- MK.SCORE p, p in field A (R180). -/
  | mkScore (p : Nat)
  /-- MK.SEL (R181). -/
  | mkSel
  /-- FMT.ENC d, d in field A (R194). -/
  | fmtEnc (d : Nat)
  /-- FMT.PUT lvl, lvl in field A (R195). -/
  | fmtPut (lvl : Nat)
  deriving DecidableEq, Repr

end Sys2Proof
end

