-- ==== Sys2Proof/WellFormed.lean ====
section
/-! DEFINITION. Which instruction terms have an encoding: every numeric operand fits its field, "An
8-bit field gives 0..255 and IMM gives 0..65535" (R82). A well-formed command may still have an
operand outside its legal range: that is an operand error of its execution, not an ill-formed term
(R82). -/

namespace Sys2Proof

/-- Every numeric operand fits the field that carries it (R82). -/
def Instr.wellFormed : Instr → Bool
  | .nop => true
  | .reset => true
  | .clrErr => true
  | .csrRd n => n < 256
  | .gfExp i => i < 65536
  | .gfLog _ => true
  | .gfMul _ _ => true
  | .cwWr idx _ => idx < 256
  | .cwRd idx => idx < 256
  | .rsGen e => e < 256
  | .gRd j => j < 256
  | .rsEnc k e => k < 256 && e < 256
  | .mxBuild v => v < 256
  | .modRd x y => x < 256 && y < 256
  | .mxPlace m => m < 256
  | .dlRd i => i < 65536
  | .mkPred p x y => p < 256 && x < 256 && y < 256
  | .mkScore p => p < 256
  | .mkSel => true
  | .fmtEnc d => d < 256
  | .fmtPut lvl => lvl < 256

end Sys2Proof
end

