-- ==== Sys2Proof/Decode.lean ====
section
/-! DEFINITION. From a command word to a command and back (R80 to R87). Decoding is total on every
32-bit word, depends on no state (R84) and rejects by name; the machine turns either rejection into
the fault IllegalCommand (R86). The encoder follows it. -/

namespace Sys2Proof

/-- The number of a command word's field OP, `w[31:24]` (R80). -/
def fieldOp (w : Word) : Nat := w.toNat / 2 ^ 24

/-- Field C, `w[23:16]` (R80). -/
def fieldC (w : Word) : Nat := w.toNat / 2 ^ 16 % 256

/-- Field B, `w[15:8]` (R80). -/
def fieldB (w : Word) : Nat := w.toNat / 2 ^ 8 % 256

/-- Field A, `w[7:0]` (R80). -/
def fieldA (w : Word) : Nat := w.toNat % 256

/-- Field IMM, `w[15:0]` (R80). -/
def fieldImm (w : Word) : Nat := w.toNat % 65536

/-- Why a word is no command (R86). -/
inductive DecodeError where
  /-- OP is not one of the 21 values of R83. -/
  | unknownOpcode
  /-- A bit that must be zero is one (R81). -/
  | mustBeZero
  deriving DecidableEq, Repr

/-- `i`, provided the must-be-zero bits of its format are zero (R81, R84). -/
def requireZero (zero : Bool) (i : Instr) : Except DecodeError Instr :=
  if zero then .ok i else .error .mustBeZero

/-- Format Z: bits 23:0 are zero (R81). -/
def formatZ (w : Word) : Bool := fieldC w == 0 && fieldImm w == 0

/-- Format A: bits 23:8 are zero (R81). -/
def formatA (w : Word) : Bool := fieldC w == 0 && fieldB w == 0

/-- Formats AB and I: bits 23:16 are zero (R81). -/
def formatAB (w : Word) : Bool := fieldC w == 0

/-- The command that `w` is (R83, R84). -/
def decode (w : Word) : Except DecodeError Instr :=
  match fieldOp w with
  | 0x00 => requireZero (formatZ w) .nop
  | 0x01 => requireZero (formatZ w) .reset
  | 0x02 => requireZero (formatZ w) .clrErr
  | 0x03 => requireZero (formatA w) (.csrRd (fieldA w))
  | 0x10 => requireZero (formatAB w) (.gfExp (fieldImm w))
  | 0x11 => requireZero (formatA w) (.gfLog (BitVec.ofNat 8 (fieldA w)))
  | 0x12 => requireZero (formatAB w) (.gfMul (BitVec.ofNat 8 (fieldA w)) (BitVec.ofNat 8 (fieldB w)))
  | 0x20 => requireZero (formatAB w) (.cwWr (fieldA w) (BitVec.ofNat 8 (fieldB w)))
  | 0x21 => requireZero (formatA w) (.cwRd (fieldA w))
  | 0x22 => requireZero (formatA w) (.rsGen (fieldA w))
  | 0x23 => requireZero (formatA w) (.gRd (fieldA w))
  | 0x24 => requireZero (formatAB w) (.rsEnc (fieldA w) (fieldB w))
  | 0x30 => requireZero (formatA w) (.mxBuild (fieldA w))
  | 0x31 => requireZero (formatAB w) (.modRd (fieldA w) (fieldB w))
  | 0x38 => requireZero (formatA w) (.mxPlace (fieldA w))
  | 0x39 => requireZero (formatAB w) (.dlRd (fieldImm w))
  | 0x40 => .ok (.mkPred (fieldC w) (fieldA w) (fieldB w))
  | 0x41 => requireZero (formatA w) (.mkScore (fieldA w))
  | 0x42 => requireZero (formatZ w) .mkSel
  | 0x50 => requireZero (formatA w) (.fmtEnc (fieldA w))
  | 0x51 => requireZero (formatA w) (.fmtPut (fieldA w))
  | _ => .error .unknownOpcode

/-- `OP << 24 | C << 16 | B << 8 | A` (R87), the fields being disjoint. -/
def assembleWord (op c b a : Nat) : Word :=
  BitVec.ofNat 32 (op * 2 ^ 24 + c * 2 ^ 16 + b * 2 ^ 8 + a)

/-- The word of a command (R83, R87). For a term that is not well formed the surplus bits spill into
other fields; no decoded command is such a term. -/
def encode : Instr → Word
  | .nop => assembleWord 0x00 0 0 0
  | .reset => assembleWord 0x01 0 0 0
  | .clrErr => assembleWord 0x02 0 0 0
  | .csrRd n => assembleWord 0x03 0 0 n
  | .gfExp i => assembleWord 0x10 0 (i / 256) (i % 256)
  | .gfLog a => assembleWord 0x11 0 0 a.toNat
  | .gfMul a b => assembleWord 0x12 0 b.toNat a.toNat
  | .cwWr idx val => assembleWord 0x20 0 val.toNat idx
  | .cwRd idx => assembleWord 0x21 0 0 idx
  | .rsGen e => assembleWord 0x22 0 0 e
  | .gRd j => assembleWord 0x23 0 0 j
  | .rsEnc k e => assembleWord 0x24 0 e k
  | .mxBuild v => assembleWord 0x30 0 0 v
  | .modRd x y => assembleWord 0x31 0 y x
  | .mxPlace m => assembleWord 0x38 0 0 m
  | .dlRd i => assembleWord 0x39 0 (i / 256) (i % 256)
  | .mkPred p x y => assembleWord 0x40 p y x
  | .mkScore p => assembleWord 0x41 0 0 p
  | .mkSel => assembleWord 0x42 0 0 0
  | .fmtEnc d => assembleWord 0x50 0 0 d
  | .fmtPut lvl => assembleWord 0x51 0 0 lvl

/-- A row of the opcode map (R83): a word is this command exactly when `(w and mask) = code`. -/
structure OpcodeRow where
  op : Nat
  mnemonic : String
  code : Word
  mask : Word
  deriving DecidableEq, Repr

/-- The opcode map (R83), its OP, match and mask columns. -/
def opcodeMap : List OpcodeRow :=
  [⟨0x00, "NOP", 0x00000000, 0xFFFFFFFF⟩, ⟨0x01, "RESET", 0x01000000, 0xFFFFFFFF⟩,
   ⟨0x02, "CLRERR", 0x02000000, 0xFFFFFFFF⟩, ⟨0x03, "CSR.RD", 0x03000000, 0xFFFFFF00⟩] ++
  [⟨0x10, "GF.EXP", 0x10000000, 0xFFFF0000⟩, ⟨0x11, "GF.LOG", 0x11000000, 0xFFFFFF00⟩,
   ⟨0x12, "GF.MUL", 0x12000000, 0xFFFF0000⟩] ++
  [⟨0x20, "CW.WR", 0x20000000, 0xFFFF0000⟩, ⟨0x21, "CW.RD", 0x21000000, 0xFFFFFF00⟩,
   ⟨0x22, "RS.GEN", 0x22000000, 0xFFFFFF00⟩, ⟨0x23, "G.RD", 0x23000000, 0xFFFFFF00⟩,
   ⟨0x24, "RS.ENC", 0x24000000, 0xFFFF0000⟩] ++
  [⟨0x30, "MX.BUILD", 0x30000000, 0xFFFFFF00⟩, ⟨0x31, "MOD.RD", 0x31000000, 0xFFFF0000⟩,
   ⟨0x38, "MX.PLACE", 0x38000000, 0xFFFFFF00⟩, ⟨0x39, "DL.RD", 0x39000000, 0xFFFF0000⟩] ++
  [⟨0x40, "MK.PRED", 0x40000000, 0xFF000000⟩, ⟨0x41, "MK.SCORE", 0x41000000, 0xFFFFFF00⟩,
   ⟨0x42, "MK.SEL", 0x42000000, 0xFFFFFFFF⟩] ++
  [⟨0x50, "FMT.ENC", 0x50000000, 0xFFFFFF00⟩, ⟨0x51, "FMT.PUT", 0x51000000, 0xFFFFFF00⟩]

/-- The mnemonic of a command (R83). -/
def Instr.mnemonic : Instr → String
  | .nop => "NOP"
  | .reset => "RESET"
  | .clrErr => "CLRERR"
  | .csrRd _ => "CSR.RD"
  | .gfExp _ => "GF.EXP"
  | .gfLog _ => "GF.LOG"
  | .gfMul _ _ => "GF.MUL"
  | .cwWr _ _ => "CW.WR"
  | .cwRd _ => "CW.RD"
  | .rsGen _ => "RS.GEN"
  | .gRd _ => "G.RD"
  | .rsEnc _ _ => "RS.ENC"
  | .mxBuild _ => "MX.BUILD"
  | .modRd _ _ => "MOD.RD"
  | .mxPlace _ => "MX.PLACE"
  | .dlRd _ => "DL.RD"
  | .mkPred _ _ _ => "MK.PRED"
  | .mkScore _ => "MK.SCORE"
  | .mkSel => "MK.SEL"
  | .fmtEnc _ => "FMT.ENC"
  | .fmtPut _ => "FMT.PUT"

/-- The host's question: the command that the decoder reads from an instruction of `nbits` bits whose
bits are `w`. A command is one 32-bit word and has no byte order (R64, R80), so for `nbits` = 32 the bits
of `w` are the word's bits. R80 has no other length; for any other `nbits` (DESIGN CHOICE, Log 21) the low
`nbits` bits of `w` are taken, zero-extended or cut to 32 bits. -/
def decodeTableWord (nbits w : Nat) : Option Instr :=
  match decode (BitVec.ofNat 32 (w % 2 ^ nbits)) with
  | .ok i => some i
  | .error _ => none

end Sys2Proof
end

