-- ==== Sys2Proof/Machine/State.lean ====
section
/-! DEFINITION. The state of QRCORE as plain data: the tuple of R20, item by item, and the command
stream the host has written (the model's own field, Log 1). -/

namespace Sys2Proof.Machine

/-- "Module: tri-state cell value — Unset | Light | Dark" (R14, R30). -/
inductive QrModule where
  | unset
  | light
  | dark
  deriving DecidableEq, Repr

/-- The five positions of the matrix pipeline (R23). Values 5 to 7 never occur (U14), so the type is
exact. Log 5. -/
inductive Phase where
  /-- 0: no matrix. -/
  | idle
  /-- 1: function patterns placed. -/
  | built
  /-- 2: data routed. -/
  | placed
  /-- 3: a mask committed. -/
  | masked
  /-- 4: format information written. -/
  | done
  deriving DecidableEq, Repr

/-- The error codes (R233). Values 6 to 15 never occur (U14), so the type is exact. Log 5. -/
inductive ErrCode where
  /-- 0: ERR = 0. -/
  | noError
  /-- 1: the word is no command. -/
  | illegalCommand
  /-- 2: PHASE does not admit the command. -/
  | badPhase
  /-- 3: an operand outside its legal range. -/
  | badOperand
  /-- 4: GF.LOG of 0. -/
  | logZero
  /-- 5: MX.BUILD of a version outside 1..4. -/
  | unsupportedVersion
  deriving DecidableEq, Repr

/-- A SIZE x SIZE grid as the list of its rows, row 0 first, column 0 first in each (R13, R30). -/
abbrev Grid (α : Type) := List (List α)

/-- A triple `(x, y, value)` of DLIST (R33); `value` is the unmasked bit. -/
structure Entry where
  x : Nat
  y : Nat
  value : Bool
  deriving DecidableEq, Repr

/-- The state tuple of R20 and the pending command stream. -/
structure State where
  /-- RES (R21). -/
  res : Word
  /-- ERR (R22). -/
  err : Bool
  /-- ERRCODE (R22). -/
  errCode : ErrCode
  /-- ERRINFO (R22). -/
  errInfo : Word
  /-- PHASE (R23). -/
  phase : Phase
  /-- VER (R24). -/
  ver : BitVec 3
  /-- SIZE (R24). -/
  size : BitVec 6
  /-- CWBUF[0..99] (R27). -/
  cwbuf : Vector Byte 100
  /-- G[0..20] (R28). -/
  g : Vector Byte 21
  /-- GE (R28). -/
  ge : BitVec 5
  /-- MAT (R30). -/
  mat : Grid QrModule
  /-- RSV (R32). -/
  rsv : Grid Bool
  /-- DLIST[0..DLEN-1] (R33). DLEN is its length, `State.dlen`. Log 6. -/
  dlist : List Entry
  /-- MASKID (R34). -/
  maskId : BitVec 3
  /-- BESTPEN (R34). -/
  bestPen : Word
  /-- PEN1 (R35). -/
  pen1 : Word
  /-- PEN2 (R35). -/
  pen2 : Word
  /-- PEN3 (R35). -/
  pen3 : Word
  /-- PEN4 (R35). -/
  pen4 : Word
  /-- PENT (R35). -/
  pent : Word
  /-- CAND[0..7] (R36). -/
  cand : Vector Word 8
  /-- FMTREG (R37). -/
  fmtReg : BitVec 15
  /-- The MODEL's own field, no item of R20: the command words of the host's stream that are
  not executed yet, oldest first (R8, R68). DESIGN CHOICE. Log 1. -/
  pending : List Word
  deriving DecidableEq, Repr

/-- DLEN, the number of triples in DLIST (R33). -/
def State.dlen (s : State) : Nat := s.dlist.length

/-- The state after reset (R20, R250): everything zero or empty, PHASE IDLE, ERR clear. Every value
is the spec's, but for the empty `pending`, which is the model's (DESIGN CHOICE, Log 1). -/
def State.reset : State where
  res := 0
  err := false
  errCode := .noError
  errInfo := 0
  phase := .idle
  ver := 0
  size := 0
  cwbuf := Vector.replicate 100 0
  g := Vector.replicate 21 0
  ge := 0
  mat := []
  rsv := []
  dlist := []
  maskId := 0
  bestPen := 0
  pen1 := 0
  pen2 := 0
  pen3 := 0
  pen4 := 0
  pent := 0
  cand := Vector.replicate 8 0
  fmtReg := 0
  pending := []

/-- Reasons the machine could stop with a fault: there is none. A fault of the spec is a next state
with ERR set (R231), and in every phase QRCORE accepts every command word (R242). Safe. Log 10. -/
inductive Fault where
  deriving DecidableEq, Repr

/-- Reasons for which the model has no meaning to give. -/
inductive Refusal where
  /-- An instruction without a meaning, rejected by name in `exec`; no arm does so any more. Safe: a
  stop proves nothing about the hardware. -/
  | notModelled (mnemonic : String)
  /-- A read of CMD or a write of RES or STATUS: "not defined by this spec: the model has no move for
  them" (R62). Raised by `portRead` and `portWrite`, never by `step`. Safe. Log 11. -/
  | undefinedPortAccess
  deriving DecidableEq, Repr

end Sys2Proof.Machine
end

