-- ==== Sys2Proof/Machine/Flags.lean ====
section
/-! DEFINITION. The numbers of ERRCODE and PHASE, the STATUS view and the CSR space (R22, R23, R40, R41),
and which phases admit a command (R236). ERR is the only flag and PHASE the only other state a
command's admission depends on (R42). -/

namespace Sys2Proof.Machine

/-- The value of ERRCODE (R233). -/
def ErrCode.code : ErrCode → BitVec 4
  | .noError => 0
  | .illegalCommand => 1
  | .badPhase => 2
  | .badOperand => 3
  | .logZero => 4
  | .unsupportedVersion => 5

/-- The value of PHASE (R23). -/
def Phase.code : Phase → BitVec 3
  | .idle => 0
  | .built => 1
  | .placed => 2
  | .masked => 3
  | .done => 4

/-- STATUS (R40): bit 0 ERR, 3:1 PHASE, 7:4 ERRCODE, 10:8 VER, 11 zero, 14:12 MASKID, 31:15 zero. -/
def status (s : State) : Word :=
  0#17 ++ s.maskId ++ 0#1 ++ s.ver ++ s.errCode.code ++ s.phase.code ++ BitVec.ofBool s.err

/-- The value of CSR `n`, or none where the number is unimplemented (R41). -/
def csr (n : Nat) (s : State) : Option Word :=
  match n with
  | 0x00 => some (status s)
  | 0x01 => some (s.errCode.code.setWidth 32)
  | 0x02 => some s.errInfo
  | 0x03 => some (s.phase.code.setWidth 32)
  | 0x04 => some (s.ver.setWidth 32)
  | 0x05 => some (s.size.setWidth 32)
  | 0x06 => some (BitVec.ofNat 32 s.dlen)
  | 0x08 => some (s.maskId.setWidth 32)
  | 0x09 => some s.bestPen
  | 0x0A => some (s.fmtReg.setWidth 32)
  | 0x0B => some (s.ge.setWidth 32)
  | 0x10 => some s.pen1
  | 0x11 => some s.pen2
  | 0x12 => some s.pen3
  | 0x13 => some s.pen4
  | 0x14 => some s.pent
  | n => if 0x18 ≤ n then s.cand[n - 0x18]? else none

/-- PHASE is not IDLE: there is a matrix to read (R236, MOD.RD). -/
def hasMatrix (s : State) : Bool := s.phase != .idle

/-- PHASE is PLACED, MASKED or DONE: DLIST is filled (R236, DL.RD). -/
def hasData (s : State) : Bool :=
  match s.phase with
  | .idle => false
  | .built => false
  | .placed => true
  | .masked => true
  | .done => true

/-- PHASE is `p` (R236, the commands admitted in one phase only). -/
def inPhase (p : Phase) (s : State) : Bool := s.phase == p

end Sys2Proof.Machine
end

