-- ==== Sys2Proof/Machine/Operands.lean ====
section
/-! DEFINITION. The legal range of every operand and the code that a value outside it raises (R233,
second table). `none` is a legal operand. Operands are taken from their fields as they are (R82). -/

namespace Sys2Proof.Machine

/-- The code `c` where the operand is illegal. -/
def faultIf (illegal : Bool) (c : ErrCode) : Option ErrCode :=
  if illegal then some c else none

/-- CSR.RD n: n is a listed CSR number (R41, R203). -/
def checkCsr (n : Nat) (s : State) : Option ErrCode := faultIf (csr n s).isNone .badOperand

/-- GF.EXP i: i <= 511 (R103). -/
def checkExpIndex (i : Nat) : Option ErrCode := faultIf (511 < i) .badOperand

/-- GF.LOG a: a is not 0 (R104). -/
def checkLogArg (a : Byte) : Option ErrCode := faultIf (a == 0) .logZero

/-- CW.WR and CW.RD idx: idx <= 99 (R125, R126). -/
def checkCwIndex (idx : Nat) : Option ErrCode := faultIf (99 < idx) .badOperand

/-- RS.GEN e: 1 <= e <= 20 (R127). -/
def checkEccLength (e : Nat) : Option ErrCode := faultIf (e < 1 || Config.eMax < e) .badOperand

/-- G.RD j: GE > 0 and j <= GE (R128). -/
def checkGIndex (j : Nat) (s : State) : Option ErrCode :=
  faultIf (s.ge == 0 || s.ge.toNat < j) .badOperand

/-- RS.ENC k, e: 1 <= e <= 20 and k + e <= 100 (R129). -/
def checkBlock (k e : Nat) : Option ErrCode :=
  faultIf (e < 1 || Config.eMax < e || Config.cwSize < k + e) .badOperand

/-- MX.BUILD v: 1 <= v <= 4 (R140). -/
def checkVersion (v : Nat) : Option ErrCode := faultIf (v < 1 || 4 < v) .unsupportedVersion

/-- MOD.RD x, y: both coordinates below SIZE (R149). -/
def checkCoordinates (x y : Nat) (s : State) : Option ErrCode :=
  faultIf (s.size.toNat ≤ x || s.size.toNat ≤ y) .badOperand

/-- MX.PLACE m: m <= 100 (R160). -/
def checkStreamLength (m : Nat) : Option ErrCode := faultIf (Config.cwSize < m) .badOperand

/-- DL.RD i: i < DLEN (R162). -/
def checkDlistIndex (i : Nat) (s : State) : Option ErrCode := faultIf (s.dlen ≤ i) .badOperand

/-- MK.PRED and MK.SCORE p: p <= 7 (R179, R180). -/
def checkMask (p : Nat) : Option ErrCode := faultIf (7 < p) .badOperand

/-- FMT.ENC d: d <= 31 (R194). -/
def checkFmtValue (d : Nat) : Option ErrCode := faultIf (31 < d) .badOperand

/-- FMT.PUT lvl: lvl = 1, the indicator of level L (R195, R238). -/
def checkLevel (lvl : Nat) : Option ErrCode := faultIf (lvl != 1) .badOperand

end Sys2Proof.Machine
end

