-- ==== Sys2Proof/Machine/Ops.lean ====
section
/-! DEFINITION. The named operations over the state: taking a fault and returning from it (R231, R237),
the order of checks (R230), the result register (R21), the codeword buffer and the generator file
(R27, R28), the grids (R30, R32), and taking the next command word (R68). -/

namespace Sys2Proof.Machine

/-! Outcomes and faults -/

/-- "raise Code" (R231): ERR <- 1, ERRCODE <- code, ERRINFO <- the whole command word; nothing else
changes. -/
def raise (c : ErrCode) (w : Word) (s : State) : State :=
  { s with err := true, errCode := c, errInfo := w }

/-- The return from the error state (R202, R237): the three error registers to 0. -/
def clearError (s : State) : State :=
  { s with err := false, errCode := .noError, errInfo := 0 }

/-- Steps (2) to (5) of R230 for a command that ERR = 1 suppresses: ignored while ERR = 1 (R232), then
the phase, then the operand, then the command's own effect. The word that a fault records is
`encode i`, the only word that decodes to `i` (Log 4). -/
def perform (i : Instr) (admitted : Bool) (operand : Option ErrCode) (effect : State → State)
    (s : State) : Host.Outcome State Fault Refusal :=
  if s.err then .next s
  else if !admitted then .next (raise .badPhase (encode i) s)
  else match operand with
    | some c => .next (raise c (encode i) s)
    | none => .next (effect s)

/-- A word that is no command (R230 step (1), R232, R86): the fault IllegalCommand when ERR = 0,
ignored when ERR = 1. -/
def rejectWord (w : Word) (s : State) : State :=
  if s.err then s else raise .illegalCommand w s

/-! Registers -/

/-- RES <- v (R21). -/
def setRes (v : Word) (s : State) : State := { s with res := v }

/-- RES <- zext_32(v) of a natural number narrower than 32 bits (R15, R21). -/
def setResNat (v : Nat) (s : State) : State := setRes (BitVec.ofNat 32 v) s

/-- PEN1 to PEN4 and PENT (R35, R180, R181). -/
def setPenalties (r1 r2 r3 r4 total : Nat) (s : State) : State :=
  { s with
    pen1 := BitVec.ofNat 32 r1
    pen2 := BitVec.ofNat 32 r2
    pen3 := BitVec.ofNat 32 r3
    pen4 := BitVec.ofNat 32 r4
    pent := BitVec.ofNat 32 total }

/-! Codeword buffer and generator file -/

/-- CWBUF[idx]; 0 outside 0..99, where no command reads (R61). -/
def readCw (idx : Nat) (s : State) : Byte := s.cwbuf[idx]?.getD 0

/-- CWBUF[idx] <- v; nothing outside 0..99 (R61). -/
def writeCw (idx : Nat) (v : Byte) (s : State) : State :=
  { s with cwbuf := s.cwbuf.setIfInBounds idx v }

/-- CWBUF[0..m-1] as a list (R66). -/
def cwStream (m : Nat) (s : State) : List Byte := s.cwbuf.toList.take m

/-- `CWBUF[k + j] <- bytes[j]` for each j (R129). -/
def writeCwRun (k : Nat) : List Byte → State → State
  | [], s => s
  | b :: bs, s => writeCwRun (k + 1) bs (writeCw k b s)

/-- The bits of a codeword stream: in increasing index, and within a byte from bit 7 down to bit 0
(R12, R66). -/
def streamBits (bytes : List Byte) : List Bool :=
  bytes.flatMap fun b => (List.range 8).map fun j => b.getLsbD (7 - j)

/-- G[j]; 0 outside 0..20 (R28). -/
def readG (j : Nat) (s : State) : Byte := s.g[j]?.getD 0

/-- The n entries of `xs`, `d` where it has fewer. -/
def padVector {α : Type} (n : Nat) (xs : List α) (d : α) : Vector α n :=
  ⟨((List.range n).map fun j => xs.getD j d).toArray, by simp⟩

/-- "Load G for e" (R123) with `poly` the coefficients of GENPOLY(e): G[0..e] the coefficients,
G[e+1..20] zero, GE <- e. -/
def loadG (e : Nat) (poly : List Byte) (s : State) : State :=
  { s with
    g := padVector 21 poly 0
    ge := BitVec.ofNat 5 e }

/-! Grids -/

/-- The cell at column x, row y, where it is in the grid (R13, R30). -/
def Grid.get? {α : Type} (m : Grid α) (x y : Nat) : Option α := m[y]?.bind fun row => row[x]?

/-- `M[x, y] <- v`; nothing outside the grid. -/
def Grid.set {α : Type} (m : Grid α) (x y : Nat) (v : α) : Grid α := m.modify y fun row => row.set x v

/-- An n x n grid of `v`. -/
def Grid.fill {α : Type} (n : Nat) (v : α) : Grid α := List.replicate n (List.replicate n v)

/-- The canonical form of an n x n grid: n rows of n cells (R30, R32). -/
def Grid.wf {α : Type} (n : Nat) (m : Grid α) : Bool :=
  m.length == n && m.all fun row => row.length == n

/-- The module value of a bit: Light = 0, Dark = 1 (R31). -/
def QrModule.ofBit (b : Bool) : QrModule := if b then .dark else .light

/-- The number of a module value: Light 0, Dark 1, Unset 2 (R31). -/
def QrModule.code : QrModule → Nat
  | .light => 0
  | .dark => 1
  | .unset => 2

/-! The command stream -/

/-- The next command word of the host's stream and the state without it (R68); none while the host has
written nothing more (R252, Log 2). -/
def takeWord (s : State) : Option (Word × State) :=
  match s.pending with
  | [] => none
  | w :: ws => some (w, { s with pending := ws })

/-- `w` is the next command word of the host's stream, before those pending. -/
def enqueueFirst (w : Word) (s : State) : State := { s with pending := w :: s.pending }

end Sys2Proof.Machine
end

