-- ==== Sys2Proof/Machine/Format.lean ====
section
/-! DEFINITION. The BCH(15,5) format-information encoder and writer: FMT.ENC and FMT.PUT
(`45_format_info.md`). -/

namespace Sys2Proof.Machine

/-- GEN, the BCH generator `0b10100110111` (R6, R190). -/
def bchGenerator : BitVec 15 := 0b10100110111

/-- XORMASK, `0b101010000010010` (R6, R190). -/
def formatXorMask : BitVec 15 := 0b101010000010010

/-- The remainder loop of R190, from bit 14 down to bit 10. -/
def bchRemainder (v : BitVec 15) : BitVec 15 :=
  [14, 13, 12, 11, 10].foldl (fun r bit =>
    if r.getLsbD bit then r ^^^ (bchGenerator <<< (bit - 10)) else r) v

/-- The codeword before the XOR mask, `v or r` with `v = d << 10` (R190). -/
def bchCodeword (d : BitVec 5) : BitVec 15 :=
  let v := (d.setWidth 15) <<< 10
  v ||| bchRemainder v

/-- `BCH15(d)` (R190). -/
def bch15 (d : BitVec 5) : BitVec 15 := bchCodeword d ^^^ formatXorMask

/-- `FMTCELLS1(i)` for FMT1_MAP = STD (R192). -/
def fmtCells1Std (i : Nat) : Nat × Nat :=
  if i ≤ 5 then (8, i)
  else if i = 6 then (8, 7)
  else if i = 7 then (8, 8)
  else if i = 8 then (7, 8)
  else (14 - i, 8)

/-- `FMTCELLS1(i)` (R192): XPOSE exchanges x and y. -/
def fmtCells1 (map : Config.Fmt1Map) (i : Nat) : Nat × Nat :=
  match map with
  | .std => fmtCells1Std i
  | .xpose => ((fmtCells1Std i).2, (fmtCells1Std i).1)

/-- `FMTCELLS2(i)` in a grid of side n (R193). -/
def fmtCells2 (n i : Nat) : Nat × Nat := if i ≤ 7 then (n - 1 - i, 8) else (8, n - 15 + i)

/-- `FMTWRITE(w)` on MAT (R191). -/
def fmtWrite (n : Nat) (w : BitVec 15) (m : Grid QrModule) : Grid QrModule :=
  (List.range 15).foldl (fun m i =>
    let v := QrModule.ofBit (w.getLsbD i)
    let c1 := fmtCells1 Config.fmt1Map i
    let c2 := fmtCells2 n i
    (m.set c1.1 c1.2 v).set c2.1 c2.2 v) m

/-- FMT.ENC d (R194). -/
def execFmtEnc (d : Nat) (s : State) : Host.Outcome State Fault Refusal :=
  perform (.fmtEnc d) true (checkFmtValue d) (setRes ((bch15 (BitVec.ofNat 5 d)).setWidth 32)) s

/-- The 5-bit value `(lvl << 3) or MASKID` (R195). -/
def formatValue (lvl : Nat) (maskId : BitVec 3) : BitVec 5 :=
  (BitVec.ofNat 5 lvl <<< 3) ||| maskId.setWidth 5

/-- The effect of FMT.PUT lvl on a legal level (R195). -/
def putFormat (lvl : Nat) (s : State) : State :=
  let w := bch15 (formatValue lvl s.maskId)
  { s with
    fmtReg := w
    mat := fmtWrite s.size.toNat w s.mat
    phase := .done
    res := w.setWidth 32 }

/-- FMT.PUT lvl (R195). -/
def execFmtPut (lvl : Nat) (s : State) : Host.Outcome State Fault Refusal :=
  perform (.fmtPut lvl) (inPhase .masked s) (checkLevel lvl) (putFormat lvl) s

end Sys2Proof.Machine
end

