-- ==== Sys2Proof/Machine/Matrix.lean ====
section
/-! DEFINITION. The matrix builder: MX.BUILD and MOD.RD (`42_matrix_builder.md`). The function patterns are
placed in the order of R141. -/

namespace Sys2Proof.Machine

/-- The two grids that MX.BUILD writes together. -/
structure Canvas where
  mat : Grid QrModule
  rsv : Grid Bool
  deriving DecidableEq, Repr

/-- A grid of Unset and a grid of false (R141). -/
def Canvas.fresh (n : Nat) : Canvas := ⟨Grid.fill n .unset, Grid.fill n false⟩

/-- "Set (x, y) to V": `MAT[x, y] <- V; RSV[x, y] <- true`. -/
def Canvas.put (c : Canvas) (x y : Nat) (v : QrModule) : Canvas :=
  ⟨c.mat.set x y v, c.rsv.set x y true⟩

/-- A border cell (R142): Light if it is Unset, reserved in either case. -/
def Canvas.putBorder (c : Canvas) (x y : Nat) : Canvas :=
  ⟨if c.mat.get? x y = some .unset then c.mat.set x y .light else c.mat, c.rsv.set x y true⟩

/-- Every (dx, dy) with both in 0..k-1. -/
def square (k : Nat) : List (Nat × Nat) :=
  (List.range k).flatMap fun dy => (List.range k).map fun dx => (dx, dy)

/-- `|a - b|` (R11). -/
def absDiff (a b : Nat) : Nat := (a - b) + (b - a)

/-- The 7x7 finder pattern (R142): Dark at ring distance 3, Light at 2, Dark at 0 and 1. -/
def finderModule (dx dy : Nat) : QrModule :=
  if max (absDiff dx 3) (absDiff dy 3) = 2 then .light else .dark

/-- The 7x7 square with its top-left corner at (ox, oy) (R142). -/
def placeFinderSquare (ox oy : Nat) (c : Canvas) : Canvas :=
  (square 7).foldl (fun c d => c.put (ox + d.1) (oy + d.2) (finderModule d.1 d.2)) c

/-- The 1-module border of that square, where it lies in the grid (R142). `d` is (dx + 1, dy + 1) for
dx, dy in -1..7. -/
def placeFinderBorder (n ox oy : Nat) (c : Canvas) : Canvas :=
  (square 9).foldl (fun c d =>
    if (d.1 = 0 ∨ d.1 = 8 ∨ d.2 = 0 ∨ d.2 = 8) ∧
        1 ≤ ox + d.1 ∧ ox + d.1 < n + 1 ∧ 1 ≤ oy + d.2 ∧ oy + d.2 < n + 1 then
      c.putBorder (ox + d.1 - 1) (oy + d.2 - 1)
    else c) c

/-- The three finder patterns with their borders (R142). -/
def placeFinders (n : Nat) (c : Canvas) : Canvas :=
  [(0, 0), (n - 7, 0), (0, n - 7)].foldl (fun c o =>
    placeFinderBorder n o.1 o.2 (placeFinderSquare o.1 o.2 c)) c

/-- The timing patterns (R143): (i, 6) and (6, i) for i in 8..n-9, Dark where i is even. -/
def placeTiming (n : Nat) (c : Canvas) : Canvas :=
  (List.range (n - 16)).foldl (fun c k =>
    let v := QrModule.ofBit (k % 2 == 0)
    (c.put (k + 8) 6 v).put 6 (k + 8) v) c

/-- The 5x5 alignment pattern (R144): Dark at ring distance 2 and 0, Light at 1. -/
def alignModule (dx dy : Nat) : QrModule :=
  if max (absDiff dx 2) (absDiff dy 2) = 1 then .light else .dark

/-- One alignment pattern centred at (cx, cy), skipped where the centre is reserved (R144). -/
def placeAlignment (cx cy : Nat) (c : Canvas) : Canvas :=
  if c.rsv.get? cx cy = some true then c
  else (square 5).foldl (fun c d =>
    c.put (cx + d.1 - 2) (cy + d.2 - 2) (alignModule d.1 d.2)) c

/-- The alignment patterns of version `v` (R144, R145). -/
def placeAlignments (v : Nat) (c : Canvas) : Canvas :=
  (Config.alignCenters v).foldl (fun c cy =>
    (Config.alignCenters v).foldl (fun c cx => placeAlignment cx cy c) c) c

/-- The dark module (R146). -/
def placeDarkModule (v : Nat) (c : Canvas) : Canvas := c.put 8 (4 * v + 9) .dark

/-- The cells of R147, in its four runs. -/
def formatCells (n : Nat) : List (Nat × Nat) :=
  [0, 1, 2, 3, 4, 5, 7, 8].map (fun x => (x, 8)) ++ [0, 1, 2, 3, 4, 5, 7, 8].map (fun y => (8, y)) ++
    (List.range 8).map (fun k => (n - 8 + k, 8)) ++ (List.range 7).map (fun k => (8, n - 7 + k))

/-- The format-information reservation with its placeholder Light (R147). -/
def reserveFormat (n : Nat) (c : Canvas) : Canvas :=
  (formatCells n).foldl (fun c p => c.put p.1 p.2 .light) c

/-- The function patterns of version `v`, in QV's order (R141). -/
def functionPatterns (v : Nat) : Canvas :=
  let n := Config.sizeOf v
  reserveFormat n <| placeDarkModule v <| placeAlignments v <| placeTiming n <| placeFinders n <|
    Canvas.fresh n

/-- The effect of MX.BUILD v on a legal version (R140). -/
def buildMatrix (v : Nat) (s : State) : State :=
  let c := functionPatterns v
  { s with
    ver := BitVec.ofNat 3 v
    size := BitVec.ofNat 6 (Config.sizeOf v)
    mat := c.mat
    rsv := c.rsv
    dlist := []
    maskId := 0
    bestPen := 0
    pen1 := 0
    pen2 := 0
    pen3 := 0
    pen4 := 0
    pent := 0
    cand := Vector.replicate 8 0
    fmtReg := 0
    phase := .built
    res := BitVec.ofNat 32 (Config.sizeOf v) }

/-- MX.BUILD v (R140). -/
def execMxBuild (v : Nat) (s : State) : Host.Outcome State Fault Refusal :=
  perform (.mxBuild v) true (checkVersion v) (buildMatrix v) s

/-- What MOD.RD returns (R149): the module's code, plus 4 where it is reserved. In a state no run
reaches, a cell that a grid lacks reads as Unset and unreserved (Log 7). -/
def moduleWord (x y : Nat) (s : State) : Nat :=
  ((s.mat.get? x y).getD .unset).code + if (s.rsv.get? x y).getD false then 4 else 0

/-- MOD.RD x, y (R149). -/
def execModRd (x y : Nat) (s : State) : Host.Outcome State Fault Refusal :=
  perform (.modRd x y) (hasMatrix s) (checkCoordinates x y s) (setResNat (moduleWord x y s)) s

end Sys2Proof.Machine
end

