-- ==== Sys2Proof/Machine/ReedSolomon.lean ====
section
/-! DEFINITION. The codeword buffer and the Reed-Solomon remainder engine: CW.WR, CW.RD, RS.GEN, G.RD and
RS.ENC (`41_reed_solomon.md`). Polynomials are coefficient lists, highest degree first (R120). -/

namespace Sys2Proof.Machine

/-- One round of R120's loop: `g` times `(x xor r)`, that is `g` times x plus `g` times r shifted by
one position. -/
def timesRoot (g : List Byte) (r : Byte) : List Byte :=
  List.zipWith (· ^^^ ·) (g ++ [0]) (0 :: g.map fun c => gfMul c r)

/-- `GENPOLY(e)` (R120): the product of `(x xor EXP[i])` for i = 0..e-1. -/
def genPoly : Nat → List Byte
  | 0 => [1]
  | e + 1 => timesRoot (genPoly e) (expAt e)

/-- XOR `add` into the front of `work`, position by position; `work` keeps its length. -/
def xorFront : List Byte → List Byte → List Byte
  | w :: ws, a :: as => (w ^^^ a) :: xorFront ws as
  | ws, [] => ws
  | [], _ => []

/-- `k` rounds of R121's loop over the part of WORK from position i on: where the coefficient there is
not zero the generator scaled by it is XORed in, starting at that position. Afterwards that position
is zero (R122 (a)) and the loop goes on behind it. -/
def divide (g : List Byte) : Nat → List Byte → List Byte
  | 0, work => work
  | _ + 1, [] => []
  | k + 1, c :: rest =>
    if c = 0 then divide g k rest
    else divide g k (xorFront (c :: rest) (g.map fun a => gfMul a c)).tail

/-- `RSREM(data, e)` (R121): what the division of `data` followed by e zero bytes leaves behind the
data positions. -/
def rsRem (data : List Byte) (e : Nat) : List Byte :=
  divide (genPoly e) data.length (data ++ List.replicate e 0)

/-- CW.WR idx, val (R125). -/
def execCwWr (idx : Nat) (val : Byte) (s : State) : Host.Outcome State Fault Refusal :=
  perform (.cwWr idx val) true (checkCwIndex idx) (writeCw idx val) s

/-- CW.RD idx (R126). -/
def execCwRd (idx : Nat) (s : State) : Host.Outcome State Fault Refusal :=
  perform (.cwRd idx) true (checkCwIndex idx) (setRes ((readCw idx s).setWidth 32)) s

/-- RS.GEN e (R127). -/
def execRsGen (e : Nat) (s : State) : Host.Outcome State Fault Refusal :=
  perform (.rsGen e) true (checkEccLength e) (fun s => setResNat e (loadG e (genPoly e) s)) s

/-- G.RD j (R128). -/
def execGRd (j : Nat) (s : State) : Host.Outcome State Fault Refusal :=
  perform (.gRd j) true (checkGIndex j s) (setRes ((readG j s).setWidth 32)) s

/-- The effect of RS.ENC k, e on legal operands (R124, R129). -/
def encodeBlock (k e : Nat) (s : State) : State :=
  setResNat (k + e) (writeCwRun k (rsRem (cwStream k s) e) (loadG e (genPoly e) s))

/-- RS.ENC k, e (R129). -/
def execRsEnc (k e : Nat) (s : State) : Host.Outcome State Fault Refusal :=
  perform (.rsEnc k e) true (checkBlock k e) (encodeBlock k e) s

end Sys2Proof.Machine
end

