-- ==== Sys2Proof/Machine/Placer.lean ====
section
/-! DEFINITION. The zig-zag data router: MX.PLACE and DL.RD (`43_data_placer.md`). -/

namespace Sys2Proof.Machine

/-- The column pairs of R160's loop, each as its right column and whether it is traversed upward; the
first argument is the loop's fuel, which SIZE suffices for. -/
def columnPairs : Nat → Nat → Bool → List (Nat × Bool)
  | 0, _, _ => []
  | fuel + 1, right, upward =>
    if right < 1 then []
    else
      let r := if right = 6 then 5 else right
      (r, upward) :: columnPairs fuel (r - 2) (!upward)

/-- The cells of one column pair in order: every row in the pair's direction, right column first
(R160). -/
def pairCells (n : Nat) (pair : Nat × Bool) : List (Nat × Nat) :=
  (List.range n).flatMap fun t =>
    let y := if pair.2 then n - 1 - t else t
    [(pair.1, y), (pair.1 - 1, y)]

/-- Every cell the traversal visits, in order (R160). -/
def visitOrder (n : Nat) : List (Nat × Nat) := (columnPairs n (n - 1) true).flatMap (pairCells n)

/-- The visited cells that are not reserved, in order: "reserved: skipped, no bit consumed" (R160). -/
def freeCells (n : Nat) (rsv : Grid Bool) : List (Nat × Nat) :=
  (visitOrder n).filter fun p => rsv.get? p.1 p.2 == some false

/-- Each free cell takes the next stream bit, 0 once the stream is exhausted (R160, R163). -/
def assignBits : List (Nat × Nat) → List Bool → List Entry
  | [], _ => []
  | p :: ps, [] => ⟨p.1, p.2, false⟩ :: assignBits ps []
  | p :: ps, b :: bs => ⟨p.1, p.2, b⟩ :: assignBits ps bs

/-- `MAT[x, y] <- Dark if bit = 1 else Light` for each entry in turn. -/
def writeEntries (es : List Entry) (m : Grid QrModule) : Grid QrModule :=
  es.foldl (fun m e => m.set e.x e.y (QrModule.ofBit e.value)) m

/-- The effect of MX.PLACE m (R160): DLIST grows by the placed entries, MAT takes their values. -/
def placeData (m : Nat) (s : State) : State :=
  let es := assignBits (freeCells s.size.toNat s.rsv) (streamBits (cwStream m s))
  let dlist := s.dlist ++ es
  { s with
    mat := writeEntries es s.mat
    dlist := dlist
    phase := .placed
    res := BitVec.ofNat 32 dlist.length }

/-- MX.PLACE m (R160). -/
def execMxPlace (m : Nat) (s : State) : Host.Outcome State Fault Refusal :=
  perform (.mxPlace m) (inPhase .built s) (checkStreamLength m) (placeData m) s

/-- `x + 256*y + 65536*v` of a triple (R162). -/
def Entry.toNat (e : Entry) : Nat := e.x + 256 * e.y + 65536 * e.value.toNat

/-- DL.RD i (R162). -/
def execDlRd (i : Nat) (s : State) : Host.Outcome State Fault Refusal :=
  perform (.dlRd i) (hasData s) (checkDlistIndex i s)
    (setResNat ((s.dlist[i]?.map Entry.toNat).getD 0)) s

end Sys2Proof.Machine
end

