-- ==== Sys2Proof/Machine/Scorer.lean ====
section
/-! DEFINITION. The mask scorer: the predicates, the four penalty rules, selection, and the commands MK.PRED,
MK.SCORE and MK.SEL (`44_mask_scorer.md`). The penalties are natural numbers (R11, R177). -/

namespace Sys2Proof.Machine

/-- `PRED(p, x, y)` (R170); p is 0..7 wherever it is used, and any larger p reads as 7. -/
def maskPred (p x y : Nat) : Bool :=
  match p with
  | 0 => (x + y) % 2 == 0
  | 1 => y % 2 == 0
  | 2 => x % 3 == 0
  | 3 => (x + y) % 3 == 0
  | 4 => (y / 2 + x / 3) % 2 == 0
  | 5 => (x * y) % 2 + (x * y) % 3 == 0
  | 6 => ((x * y) % 2 + (x * y) % 3) % 2 == 0
  | _ => ((x + y) % 2 + (x * y) % 3) % 2 == 0

/-- A DLIST entry with mask p applied: `v xor (1 if PRED(p, x, y) else 0)` (R171). -/
def maskEntry (p : Nat) (e : Entry) : Entry := { e with value := xor e.value (maskPred p e.x e.y) }

/-- `CANDIDATE(p)` (R171): MAT with each cell of DLIST holding its original bit under mask p. -/
def candidate (p : Nat) (s : State) : Grid QrModule := writeEntries (s.dlist.map (maskEntry p)) s.mat

/-- The columns of an n-column grid, each read top to bottom. In a state no run reaches, a cell that a
row lacks reads as Unset (Log 7). -/
def columns (n : Nat) (m : Grid QrModule) : List (List QrModule) :=
  (List.range n).map fun x => m.map fun row => row.getD x .unset

/-- The lines of a grid: its rows left to right, then its columns top to bottom. -/
def gridLines (n : Nat) (m : Grid QrModule) : List (List QrModule) := m ++ columns n m

/-- Rule 1 on one line (R173): each maximal run of length L >= 5 gives L - 2. -/
def runPenalty (line : List QrModule) : Nat :=
  ((line.splitBy fun a b => a == b).map fun run => if 5 ≤ run.length then run.length - 2 else 0).sum

/-- `RULE1` (R173), over all lines. -/
def rule1 (n : Nat) (m : Grid QrModule) : Nat := ((gridLines n m).map runPenalty).sum

/-- The 2x2 blocks of equal modules in two adjacent rows (R174). -/
def blocksInRows : List QrModule → List QrModule → Nat
  | a :: a' :: as, b :: b' :: bs =>
    (if a = a' ∧ a = b ∧ a = b' then 1 else 0) + blocksInRows (a' :: as) (b' :: bs)
  | _, _ => 0

/-- The 2x2 blocks of equal modules in a grid (R174). -/
def blocks : Grid QrModule → Nat
  | r :: r' :: rs => blocksInRows r r' + blocks (r' :: rs)
  | _ => 0

/-- `RULE2` (R174). -/
def rule2 (m : Grid QrModule) : Nat := 3 * blocks m

/-- `P = 1 0 1 1 1 0 1 0 0 0 0` (R175). -/
def finderLike : List QrModule :=
  [true, false, true, true, true, false, true, false, false, false, false].map QrModule.ofBit

/-- How many starts of the line have the 11 cells of `pattern` from there on, wholly inside the line
(R175). -/
def matchesAt (pattern : List QrModule) (line : List QrModule) : Nat :=
  (line.tails.filter fun rest => pattern.isPrefixOf rest).length

/-- `RULE3` (R175): 40 for each line, start and pattern that match. -/
def rule3 (n : Nat) (m : Grid QrModule) : Nat :=
  40 * ((gridLines n m).map fun line =>
    matchesAt finderLike line + matchesAt finderLike.reverse line).sum

/-- The cells equal to 1 (R176). -/
def darkCount (m : Grid QrModule) : Nat := (m.map fun row => row.count .dark).sum

/-- `RULE4` from the number of Dark cells d and of all cells t (R176): `10 * (|20*d - 10*t| div t)`. -/
def balancePenalty (d t : Nat) : Nat := 10 * (((20 * d - 10 * t) + (10 * t - 20 * d)) / t)

/-- `RULE4` (R176). -/
def rule4 (n : Nat) (m : Grid QrModule) : Nat := balancePenalty (darkCount m) (n * n)

/-- The four penalties of `SCORE(p)` (R172). -/
structure Score where
  r1 : Nat
  r2 : Nat
  r3 : Nat
  r4 : Nat
  deriving DecidableEq, Repr

/-- "total penalty = rule1 + rule2 + rule3 + rule4" (R172). -/
def Score.total (c : Score) : Nat := c.r1 + c.r2 + c.r3 + c.r4

/-- The score of a grid (R172). -/
def scoreGrid (n : Nat) (m : Grid QrModule) : Score := ⟨rule1 n m, rule2 m, rule3 n m, rule4 n m⟩

/-- `SCORE(p)` (R172). -/
def score (p : Nat) (s : State) : Score := scoreGrid s.size.toNat (candidate p s)

/-- PEN1 to PEN4 and PENT from a score (R180, R181). -/
def latchScore (c : Score) (s : State) : State := setPenalties c.r1 c.r2 c.r3 c.r4 c.total s

/-- The scan of R178 over the remaining candidates: a later one replaces the incumbent only where its
total is strictly lower. -/
def scanBest : Nat × Score → List (Nat × Score) → Nat × Score
  | best, [] => best
  | best, c :: cs => scanBest (if c.2.total < best.2.total then c else best) cs

/-- The scores of the eight candidates, in order of pattern id (R178). -/
def allScores (s : State) : List Score := (List.range 8).map fun p => score p s

/-- The pattern that R178 commits, with its score, from the eight scores in order of id. -/
def selectBest (scores : List Score) : Nat × Score :=
  match scores.zipIdx.map fun c => (c.2, c.1) with
  | [] => (0, ⟨0, 0, 0, 0⟩)
  | c :: cs => scanBest c cs

/-- The effect of MK.SEL (R178, R181). -/
def selectMask (s : State) : State :=
  let scores := allScores s
  let best := selectBest scores
  latchScore best.2
    { s with
      cand := padVector 8 (scores.map fun c => BitVec.ofNat 32 c.total) 0
      mat := candidate best.1 s
      maskId := BitVec.ofNat 3 best.1
      bestPen := BitVec.ofNat 32 best.2.total
      phase := .masked
      res := BitVec.ofNat 32 best.1 }

/-- MK.PRED p, x, y (R179). -/
def execMkPred (p x y : Nat) (s : State) : Host.Outcome State Fault Refusal :=
  perform (.mkPred p x y) true (checkMask p) (setResNat (maskPred p x y).toNat) s

/-- The effect of MK.SCORE p (R180). -/
def scoreMask (p : Nat) (s : State) : State :=
  let c := score p s
  setResNat c.total (latchScore c s)

/-- MK.SCORE p (R180). -/
def execMkScore (p : Nat) (s : State) : Host.Outcome State Fault Refusal :=
  perform (.mkScore p) (inPhase .placed s) (checkMask p) (scoreMask p) s

/-- MK.SEL (R181). -/
def execMkSel (s : State) : Host.Outcome State Fault Refusal :=
  perform .mkSel (inPhase .placed s) none selectMask s

end Sys2Proof.Machine
end

