-- ==== Sys2Proof/Machine/System.lean ====
section
/-! DEFINITION. The system commands NOP, RESET, CLRERR and CSR.RD (`46_system.md`). All four execute whether
ERR is 0 or 1, and in every phase (R232). -/

namespace Sys2Proof.Machine

/-- NOP (R200): nothing. -/
def execNop (s : State) : Host.Outcome State Fault Refusal := .next s

/-- RESET (R201): every item of R20 takes its reset value. The host's pending words are no item of R20
and stay (Log 1). -/
def execReset (s : State) : Host.Outcome State Fault Refusal :=
  .next { State.reset with pending := s.pending }

/-- CLRERR (R202). -/
def execClrErr (s : State) : Host.Outcome State Fault Refusal := .next (clearError s)

/-- CSR.RD n (R203): it executes with ERR = 1 too, but an unimplemented number is then ignored, for the
first error is kept. -/
def execCsrRd (n : Nat) (s : State) : Host.Outcome State Fault Refusal :=
  match csr n s with
  | some v => .next (setRes v s)
  | none => perform (.csrRd n) true (checkCsr n s) id s

end Sys2Proof.Machine
end

