-- ==== Sys2Proof/Machine/Dispatch.lean ====
section
/-! DEFINITION. One arm per command: a direct call of its meaning (steps (2) to (5) of R230). -/

namespace Sys2Proof.Machine

def exec (i : Instr) (s : State) : Host.Outcome State Fault Refusal :=
  match i with
  | .nop => Sys2Proof.Machine.execNop s
  | .reset => Sys2Proof.Machine.execReset s
  | .clrErr => Sys2Proof.Machine.execClrErr s
  | .csrRd n => Sys2Proof.Machine.execCsrRd n s
  | .gfExp k => Sys2Proof.Machine.execGfExp k s
  | .gfLog a => Sys2Proof.Machine.execGfLog a s
  | .gfMul a b => Sys2Proof.Machine.execGfMul a b s
  | .cwWr idx val => Sys2Proof.Machine.execCwWr idx val s
  | .cwRd idx => Sys2Proof.Machine.execCwRd idx s
  | .rsGen e => Sys2Proof.Machine.execRsGen e s
  | .gRd j => Sys2Proof.Machine.execGRd j s
  | .rsEnc k e => Sys2Proof.Machine.execRsEnc k e s
  | .mxBuild v => Sys2Proof.Machine.execMxBuild v s
  | .modRd x y => Sys2Proof.Machine.execModRd x y s
  | .mxPlace m => Sys2Proof.Machine.execMxPlace m s
  | .dlRd k => Sys2Proof.Machine.execDlRd k s
  | .mkPred p x y => Sys2Proof.Machine.execMkPred p x y s
  | .mkScore p => Sys2Proof.Machine.execMkScore p s
  | .mkSel => Sys2Proof.Machine.execMkSel s
  | .fmtEnc d => Sys2Proof.Machine.execFmtEnc d s
  | .fmtPut lvl => Sys2Proof.Machine.execFmtPut lvl s

end Sys2Proof.Machine
end

