-- ==== Sys2Proof/Machine/Issue.lean ====
section
/-! DEFINITION. Issuing one command word (R62, R230). -/

namespace Sys2Proof.Machine

/-- The word `w` is written to CMD: decode it (R230 step (1)) and, where it is a command, do the rest of
R230. -/
def issue (w : Word) (s : State) : Host.Outcome State Fault Refusal :=
  match decode w with
  | .error _ => .next (rejectWord w s)
  | .ok i => exec i s

end Sys2Proof.Machine
end

