-- ==== Sys2Proof/Machine/Step.lean ====
section
/-! DEFINITION. One step of the machine: the next word of the host's stream is issued (R8, R68). -/

namespace Sys2Proof.Machine

/-- One command, executed to completion (R67, R68). While the host has written nothing the machine
waits, and the state is the same (R252, Log 2). -/
def step (s : State) : Host.Outcome State Fault Refusal :=
  match takeWord s with
  | none => .next s
  | some (w, s') => issue w s'

/-- The word `w`, of `nbits` bits, stands first in the host's stream, so that the very next step issues
it (Log 3). A command has 32 bits (R80); for any other `nbits` (DESIGN CHOICE, Log 21) the low `nbits` bits
of `w` are zero-extended or cut to 32 bits, as in `decodeTableWord`. -/
def State.withFetchWord (s : State) (nbits w : Nat) : State :=
  enqueueFirst (BitVec.ofNat 32 (w % 2 ^ nbits)) s

end Sys2Proof.Machine
end

