-- ==== Sys2Proof/Machine/Assembler.lean ====
section
/-! DEFINITION. The assembler line of R87, over lists of characters: the mnemonic in capitals, a space, the
operands separated by commas, each decimal or `0x` hexadecimal; a semicolon starts a comment. -/

namespace Sys2Proof.Machine

/-- The command of a mnemonic and its operands in the order of R83's mnemonic column; none where the
mnemonic or the number of operands fits no row, or an operand does not fit its field (R82). -/
def commandOf (mnemonic : String) (operands : List Nat) : Option Instr :=
  let found : Option Instr :=
    match mnemonic, operands with
    | "NOP", [] => some .nop
    | "RESET", [] => some .reset
    | "CLRERR", [] => some .clrErr
    | "CSR.RD", [n] => some (.csrRd n)
    | "GF.EXP", [i] => some (.gfExp i)
    | "GF.LOG", [a] => if a < 256 then some (.gfLog (BitVec.ofNat 8 a)) else none
    | "GF.MUL", [a, b] =>
      if a < 256 ∧ b < 256 then some (.gfMul (BitVec.ofNat 8 a) (BitVec.ofNat 8 b)) else none
    | "CW.WR", [idx, val] => if val < 256 then some (.cwWr idx (BitVec.ofNat 8 val)) else none
    | "CW.RD", [idx] => some (.cwRd idx)
    | "RS.GEN", [e] => some (.rsGen e)
    | "G.RD", [j] => some (.gRd j)
    | "RS.ENC", [k, e] => some (.rsEnc k e)
    | "MX.BUILD", [v] => some (.mxBuild v)
    | "MOD.RD", [x, y] => some (.modRd x y)
    | "MX.PLACE", [m] => some (.mxPlace m)
    | "DL.RD", [i] => some (.dlRd i)
    | "MK.PRED", [p, x, y] => some (.mkPred p x y)
    | "MK.SCORE", [p] => some (.mkScore p)
    | "MK.SEL", [] => some .mkSel
    | "FMT.ENC", [d] => some (.fmtEnc d)
    | "FMT.PUT", [lvl] => some (.fmtPut lvl)
    | _, _ => none
  found.filter Instr.wellFormed

/-- The value of a digit in base 16, letters in either case. -/
def digitValue (c : Char) : Option Nat :=
  if '0' ≤ c ∧ c ≤ '9' then some (c.toNat - 48)
  else if 'A' ≤ c ∧ c ≤ 'F' then some (c.toNat - 55)
  else if 'a' ≤ c ∧ c ≤ 'f' then some (c.toNat - 87)
  else none

/-- The number that digits of a base spell; none where one is no digit of that base. -/
def digitsValue (base : Nat) : List Char → Nat → Option Nat
  | [], n => some n
  | c :: cs, n =>
    match digitValue c with
    | some d => if d < base then digitsValue base cs (base * n + d) else none
    | none => none

/-- An operand: a decimal number or `0x` hexadecimal (R87); never the empty word. -/
def operandValue : List Char → Option Nat
  | [] => none
  | '0' :: 'x' :: c :: cs => digitsValue 16 (c :: cs) 0
  | c :: cs => digitsValue 10 (c :: cs) 0

/-- The parts of a line between the characters that `sep` picks, the empty parts kept. -/
def partsAt (sep : Char → Bool) : List Char → List (List Char)
  | [] => [[]]
  | c :: cs =>
    if sep c then [] :: partsAt sep cs
    else match partsAt sep cs with
      | [] => [[c]]
      | p :: ps => (c :: p) :: ps

/-- A part of a line without the blanks around it; those inside stay. -/
def trimBlanks (part : List Char) : List Char :=
  ((part.dropWhile fun c => c == ' ').reverse.dropWhile fun c => c == ' ').reverse

/-- The operands of a line's rest, comma-separated. DESIGN CHOICE (Log 13), R87 leaves blanks open: they
are ignored around an operand; inside one (`1 2`, `0 x10`) a blank is no digit and the line is
rejected. -/
def operandList (rest : List Char) : Option (List Nat) :=
  let text := trimBlanks rest
  if text.isEmpty then some []
  else (partsAt (fun c => c == ',') text).mapM fun part => operandValue (trimBlanks part)

/-- One assembler line (R87). -/
def assembleLine (line : List Char) : Option Instr :=
  let code := (line.takeWhile fun c => c != ';').dropWhile fun c => c == ' '
  let name := code.takeWhile fun c => c != ' '
  match operandList (code.drop name.length) with
  | some operands => commandOf (String.ofList name) operands
  | none => none

end Sys2Proof.Machine
end

