-- ==== Sys2Proof/Machine/Ports.lean ====
section
/-! DEFINITION. The host's side of the machine: the three ports and hardware reset (R62, R63, R64, R250).
Every access is one whole word; a partial-word access has no term here (R64, Log 11). -/

namespace Sys2Proof.Machine

/-- The three ports (R62). -/
inductive Port where
  | cmd
  | res
  | status
  deriving DecidableEq, Repr

/-- The word index of a port from the block's base (R62). -/
def Port.index : Port → Nat
  | .cmd => 0
  | .res => 1
  | .status => 2

/-- The port at a host address counted in words, BASE being the platform's choice and so an argument
(R7, R63, D28). -/
def portAt (base addr : Nat) : Option Port :=
  [Port.cmd, .res, .status].find? fun p => base + p.index == addr

/-- A read of a port (R62): RES returns the register, STATUS the view; reads have no side effect. A read
of CMD is not defined (Log 11). DESIGN CHOICE (Log 20): it answers from the state as it is, whatever words
still stand in `pending`. -/
def portRead (p : Port) (s : State) : Except Refusal Word :=
  match p with
  | .cmd => .error .undefinedPortAccess
  | .res => .ok s.res
  | .status => .ok (status s)

/-- A write of a port (R62): a write of CMD issues the word and has completed, with all its effects, when
it returns. A write of RES or STATUS is not defined (Log 11). DESIGN CHOICE (Log 20): the word is issued at
once, ahead of the words in `pending`, which stay. -/
def portWrite (p : Port) (w : Word) (s : State) : Host.Outcome State Fault Refusal :=
  match p with
  | .cmd => issue w s
  | .res => .refused .undefinedPortAccess
  | .status => .refused .undefinedPortAccess

/-- Hardware reset (R250): the same effect as the RESET command, in any state (Log 16). -/
def hardwareReset (s : State) : State := { State.reset with pending := s.pending }

/-- The words `ws` issued one after another (R68), ahead of those in `pending` (Log 20). -/
def issueAll : List Word → State → Host.Outcome State Fault Refusal
  | [], s => .next s
  | w :: ws, s =>
    match issue w s with
    | .next t => issueAll ws t
    | .fault f => .fault f
    | .refused r => .refused r

end Sys2Proof.Machine
end

