-- ==== Sys2Proof/Machine/HostPipeline.lean ====
section
/-! DEFINITION. The host procedures of `47_host_pipeline.md` and the pseudo-commands of R88: functions that
produce command sequences. Nothing here is a command (R4). -/

namespace Sys2Proof.Machine

/-- The host-level errors (R214, R216). `unsupportedVersion` is declared and never returned. -/
inductive QrError where
  | dataTooLong
  | unsupportedVersion
  | unsupportedLevel
  deriving DecidableEq, Repr

/-- The level a caller requests (R214). -/
inductive EccLevel where
  | levelL
  | levelM
  | levelQ
  | levelH
  deriving DecidableEq, Repr

/-- `SELECT_VERSION(len)` (R210): the smallest v in 1..4 with CAP_BYTES(v) >= len. -/
def selectVersion (len : Nat) : Except QrError Nat :=
  match [1, 2, 3, 4].find? fun v => len ≤ Config.capBytes v with
  | some v => .ok v
  | none => .error .dataTooLong

/-- The 8 bits of a number, bit 7 first. -/
def byteBits (n : Nat) : List Bool := (List.range 8).map fun j => n.testBit (7 - j)

/-- The pad codewords (R211): 0xEC and 0x11 in turn, `count` of them. -/
def padBits (count : Nat) : List Bool :=
  (List.range count).flatMap fun i => byteBits (if i % 2 = 0 then 0xEC else 0x11)

/-- The byte-mode indicator, the count field and the payload (R211). -/
def headerBits (payload : List Byte) : List Bool :=
  [false, true, false, false] ++ byteBits payload.length ++ payload.flatMap fun c => byteBits c.toNat

/-- The bit stream of R211, cut to `T = 8 * DATA_CW(v)` bits. R211 gives it for a length up to CAP_BYTES(v);
above it (DESIGN CHOICE, Log 18) `T - length(bits)` that would be negative is 0, the stream is still cut to
T bits, and the count field holds the low 8 bits of the length. -/
def dataBits (payload : List Byte) (v : Nat) : List Bool :=
  let t := 8 * Config.dataCw v
  let header := headerBits payload
  let terminated := header ++ List.replicate (min 4 (t - header.length)) false
  let aligned := terminated ++ List.replicate ((8 - terminated.length % 8) % 8) false
  (aligned ++ padBits ((t - aligned.length + 7) / 8)).take t

/-- The byte whose bits, bit 7 first, are `bits`. -/
def byteOfBits (bits : List Bool) : Byte :=
  BitVec.ofNat 8 (bits.foldl (fun n b => 2 * n + b.toNat) 0)

/-- `DATA_CODEWORDS(payload, v)` (R211), given for v in 1..4. For any other v it is the empty list (DESIGN
CHOICE, Log 18). -/
def dataCodewords (payload : List Byte) (v : Nat) : List Byte :=
  (List.range (Config.dataCw v)).map fun q => byteOfBits (((dataBits payload v).drop (8 * q)).take 8)

/-- An ECCBlock, `{ data, ecc }` (R213). -/
structure EccBlock where
  data : List Byte
  ecc : List Byte
  deriving DecidableEq, Repr

/-- Column by column, each part in order: "shorter blocks contribute nothing past their length" (R213). -/
def interleaveParts (parts : List (List Byte)) : List Byte :=
  (List.range ((parts.map List.length).foldl max 0)).flatMap fun c => parts.filterMap fun p => p[c]?

/-- `INTERLEAVE(blocks)` (R213), given for a non-empty list. Of no block it is the empty list (DESIGN CHOICE,
Log 18). -/
def interleave (blocks : List EccBlock) : List Byte :=
  interleaveParts (blocks.map EccBlock.data) ++ interleaveParts (blocks.map EccBlock.ecc)

/-- `CW.LOAD b0, ..., bm` (R88 (1)), m <= 99. DESIGN CHOICE (Log 17), R88 gives a longer list no
expansion: it goes on as CW.WR 100 and so on, and the empty list gives no command. -/
def cwLoad (bytes : List Byte) : List Instr := bytes.zipIdx.map fun b => .cwWr b.2 b.1

/-- `QR.RUN v` (R88 (2)), v in 1..4. DESIGN CHOICE (Log 17), R88 gives any other v no expansion: the same
five commands with the numbers 0 that Config has there. -/
def qrRun (v : Nat) : List Instr :=
  [.rsEnc (Config.dataCw v) (Config.eccCw v), .mxBuild v, .mxPlace (Config.totalCw v), .mkSel, .fmtPut 1]

/-- Whether the host refuses the level (R214): only under LEVEL_POLICY = REJECT, and not level L. -/
def refusesLevel (policy : Config.LevelPolicy) (level : EccLevel) : Bool :=
  policy == .reject && level != .levelL

/-- Steps 1 to 10 of `GENERATE(payload, level)` (R215): an error, or the commands the host issues. The
diagnostic that R214 records for a normalised level is outside the model (Log 12). -/
def generate (payload : List Byte) (level : EccLevel) : Except QrError (List Instr) :=
  if refusesLevel Config.levelPolicy level then .error .unsupportedLevel
  else match selectVersion payload.length with
    | .error e => .error e
    | .ok v => .ok (.reset :: cwLoad (dataCodewords payload v) ++ qrRun v)

/-- The STATUS that step 11 of R215 reads: `4*2 + 256*v + 4096*MASKID`. -/
def doneStatus (v maskId : Nat) : Nat := 4 * 2 + 256 * v + 4096 * maskId

/-- `moduleCount` of the returned view (R217). -/
def moduleCount (s : State) : Nat := s.size.toNat

/-- `get(x, y)` of the returned view: the low bit of RES after MOD.RD x, y (R215 step 12). R217 takes the low
two bits; the two agree in DONE, where the view is returned. DESIGN CHOICE (Log 19): one bit in every state,
so a cell that is still Unset shows as 0, and none where MOD.RD does not run (outside the grid, in IDLE, with
ERR = 1). -/
def viewModule (x y : Nat) (s : State) : Option Nat :=
  match exec (.modRd x y) s with
  | .next t => if t.err then none else some (t.res.toNat % 2)
  | _ => none

end Sys2Proof.Machine
end

