-- ==== Sys2Proof/Safety.lean ====
section
/-! DEFINITION. What counts as a safe command and a legal state, in the terms the claims use: the admission
table (R236) and the operand table (R233) written once more from the spec, apart from the meanings; the
invariants that the state rules R22 to R37 give; and, for comparison, the field product, the value of a
polynomial and the function patterns as closed forms. -/

namespace Sys2Proof.Machine

/-! Admission -/

/-- The four commands that execute while ERR = 1 (R232). -/
def executesInError : Instr → Bool
  | .nop => true
  | .reset => true
  | .clrErr => true
  | .csrRd _ => true
  | .gfExp _ => false
  | .gfLog _ => false
  | .gfMul _ _ => false
  | .cwWr _ _ => false
  | .cwRd _ => false
  | .rsGen _ => false
  | .gRd _ => false
  | .rsEnc _ _ => false
  | .mxBuild _ => false
  | .modRd _ _ => false
  | .mxPlace _ => false
  | .dlRd _ => false
  | .mkPred _ _ _ => false
  | .mkScore _ => false
  | .mkSel => false
  | .fmtEnc _ => false
  | .fmtPut _ => false

/-- "admitted when PHASE is" (R236): the phases of a command that has a requirement. -/
def admittingPhases : Instr → Option (List Phase)
  | .nop => none
  | .reset => none
  | .clrErr => none
  | .csrRd _ => none
  | .gfExp _ => none
  | .gfLog _ => none
  | .gfMul _ _ => none
  | .cwWr _ _ => none
  | .cwRd _ => none
  | .rsGen _ => none
  | .gRd _ => none
  | .rsEnc _ _ => none
  | .mxBuild _ => none
  | .modRd _ _ => some [.built, .placed, .masked, .done]
  | .mxPlace _ => some [.built]
  | .dlRd _ => some [.placed, .masked, .done]
  | .mkPred _ _ _ => none
  | .mkScore _ => some [.placed]
  | .mkSel => some [.placed]
  | .fmtEnc _ => none
  | .fmtPut _ => some [.masked]

/-- PHASE meets the command's requirement (R236). -/
def admittedIn (i : Instr) (p : Phase) : Bool :=
  match admittingPhases i with
  | none => true
  | some ps => ps.contains p

/-- The implemented CSR numbers (R203). -/
def csrNumbers : List Nat :=
  [0x00, 0x01, 0x02, 0x03, 0x04, 0x05, 0x06, 0x08, 0x09, 0x0A, 0x0B, 0x10, 0x11, 0x12, 0x13, 0x14,
   0x18, 0x19, 0x1A, 0x1B, 0x1C, 0x1D, 0x1E, 0x1F]

/-- "Operand conditions, every one of them" (R233, second table). -/
def operandError : Instr → State → Option ErrCode
  | .nop, _ => none
  | .reset, _ => none
  | .clrErr, _ => none
  | .csrRd n, _ => if n ∈ csrNumbers then none else some .badOperand
  | .gfExp i, _ => if i > 511 then some .badOperand else none
  | .gfLog a, _ => if a = 0 then some .logZero else none
  | .gfMul _ _, _ => none
  | .cwWr idx _, _ => if idx > 99 then some .badOperand else none
  | .cwRd idx, _ => if idx > 99 then some .badOperand else none
  | .rsGen e, _ => if e = 0 ∨ e > 20 then some .badOperand else none
  | .gRd j, s => if s.ge = 0 ∨ j > s.ge.toNat then some .badOperand else none
  | .rsEnc k e, _ => if e = 0 ∨ e > 20 ∨ k + e > 100 then some .badOperand else none
  | .mxBuild v, _ => if v = 0 ∨ v > 4 then some .unsupportedVersion else none
  | .modRd x y, s => if x ≥ s.size.toNat ∨ y ≥ s.size.toNat then some .badOperand else none
  | .mxPlace m, _ => if m > 100 then some .badOperand else none
  | .dlRd i, s => if i ≥ s.dlist.length then some .badOperand else none
  | .mkPred p _ _, _ => if p > 7 then some .badOperand else none
  | .mkScore p, _ => if p > 7 then some .badOperand else none
  | .mkSel, _ => none
  | .fmtEnc d, _ => if d > 31 then some .badOperand else none
  | .fmtPut lvl, _ => if lvl ≠ 1 then some .badOperand else none

/-- A command that is safe in a state: ERR is clear, the phase admits it and its operands are legal. -/
def safeCommand (i : Instr) (s : State) : Bool :=
  !s.err && admittedIn i s.phase && (operandError i s).isNone

/-- The word is illegal (R86): issued while ERR = 0 it faults with IllegalCommand and changes nothing
else. -/
def IllegalAt (w : Nat) : Prop :=
  ∀ s : State, s.err = false →
    issue (BitVec.ofNat 32 w) s = .next (raise .illegalCommand (BitVec.ofNat 32 w) s)

/-! Invariants -/

/-- The error registers (R22): ERR = 0 implies ERRCODE = 0 and ERRINFO = 0; ERR = 1 implies a code of
1..5. -/
abbrev ErrorInv (s : State) : Prop :=
  (s.err = false → s.errCode = .noError ∧ s.errInfo = 0) ∧ (s.err = true → s.errCode ≠ .noError)

/-- The generator file (R28): GE is 0..20; G holds GENPOLY(GE) and zeros, all zeros where GE = 0. -/
abbrev GeneratorInv (s : State) : Prop :=
  s.ge.toNat ≤ 20 ∧
  s.g.toList =
    if s.ge = 0 then List.replicate 21 0
    else genPoly s.ge.toNat ++ List.replicate (20 - s.ge.toNat) 0

/-- VER and SIZE (R24): VER is 0 exactly in IDLE, else 1..4, and SIZE is `17 + 4*VER`, 0 in IDLE. -/
abbrev VersionInv (s : State) : Prop :=
  (s.phase = .idle ↔ s.ver = 0) ∧ s.ver.toNat ≤ 4 ∧
  s.size.toNat = if s.ver = 0 then 0 else 17 + 4 * s.ver.toNat

/-- The coordinates of DLIST's entries, in order. -/
def dlistCells (s : State) : List (Nat × Nat) := s.dlist.map fun e => (e.x, e.y)

/-- The shape of MAT, RSV and DLIST (R30, R32, R33): no cells in IDLE; else SIZE x SIZE cells, RSV as
MX.BUILD made it, DLIST empty in BUILT and afterwards exactly the unreserved cells in traversal
order. -/
abbrev GeometryInv (s : State) : Prop :=
  VersionInv s ∧
  s.mat.wf s.size.toNat = true ∧
  s.rsv = (if s.phase = .idle then [] else (functionPatterns s.ver.toNat).rsv) ∧
  (hasData s = false → s.dlist = []) ∧
  (hasData s = true → dlistCells s = freeCells s.size.toNat s.rsv)

/-- The module values (R30): in BUILT a cell is Unset exactly when RSV is false there; in PLACED, MASKED
and DONE no cell is Unset. -/
abbrev ModuleInv (s : State) : Prop :=
  ∀ x < s.size.toNat, ∀ y < s.size.toNat,
    (s.phase = .built → (s.mat.get? x y = some .unset ↔ s.rsv.get? x y = some false)) ∧
    (hasData s = true → s.mat.get? x y ≠ some .unset)

/-- The reserved cells that are no format cells: the function modules no command writes after MX.BUILD
(R150). -/
def functionCells (s : State) : List (Nat × Nat) :=
  (square s.size.toNat).filter fun p =>
    s.rsv.get? p.1 p.2 == some true && !(formatCells s.size.toNat).contains p

/-- The function modules (R150): in every phase with a matrix each of them holds what MX.BUILD gave it,
and before DONE each format cell holds its placeholder Light (R147). -/
abbrev FunctionInv (s : State) : Prop :=
  (s.phase ≠ .idle → ∀ p ∈ functionCells s,
    s.mat.get? p.1 p.2 = (functionPatterns s.ver.toNat).mat.get? p.1 p.2) ∧
  (s.phase ≠ .idle → s.phase ≠ .done →
    ∀ p ∈ formatCells s.size.toNat, s.mat.get? p.1 p.2 = some .light)

/-- MASKID, BESTPEN and CAND (R34, R36): zero before MASKED; afterwards CAND[MASKID] = BESTPEN is the least
of the eight and the first of the least ones. -/
abbrev ScorerInv (s : State) : Prop :=
  (s.phase ≠ .masked → s.phase ≠ .done →
    s.maskId = 0 ∧ s.bestPen = 0 ∧ ∀ p : Fin 8, s.cand[p] = 0) ∧
  (s.phase = .masked ∨ s.phase = .done →
    ∀ p : Fin 8, (p.val = s.maskId.toNat → s.cand[p] = s.bestPen) ∧
      s.bestPen.toNat ≤ s.cand[p].toNat ∧
      (p.val < s.maskId.toNat → s.bestPen.toNat < s.cand[p].toNat))

/-- PENT = PEN1 + PEN2 + PEN3 + PEN4 always (R35). -/
abbrev PenaltySumInv (s : State) : Prop := s.pent = s.pen1 + s.pen2 + s.pen3 + s.pen4

/-- FMTREG and the two format strips (R37, R191): FMTREG is 0 before DONE; in DONE it is the format word of
level L and MASKID, and both strips read back as it, bit for bit. -/
abbrev FormatInv (s : State) : Prop :=
  (s.phase ≠ .done → s.fmtReg = 0) ∧
  (s.phase = .done →
    s.fmtReg = bch15 (8#5 ||| s.maskId.setWidth 5) ∧
    ∀ i < 15,
      s.mat.get? (fmtCells1 Config.fmt1Map i).1 (fmtCells1 Config.fmt1Map i).2 =
        some (QrModule.ofBit (s.fmtReg.getLsbD i)) ∧
      s.mat.get? (fmtCells2 s.size.toNat i).1 (fmtCells2 s.size.toNat i).2 =
        some (QrModule.ofBit (s.fmtReg.getLsbD i)))

/-! Closed forms to compare with -/

/-- Doubling in GF(2^8) modulo 0x11D (R100, R106): `2a`, with 0x11D XORed in when bit 8 is set. -/
def fieldDouble (a : Byte) : Byte := if a.toNat < 128 then a <<< 1 else (a <<< 1) ^^^ 0x1D

/-- The product of polynomials over GF(2) modulo 0x11D, bit by bit from bit 7 of `b` down (R102). -/
def fieldProduct (a b : Byte) : Byte :=
  [7, 6, 5, 4, 3, 2, 1, 0].foldl (fun acc k =>
    if b.getLsbD k then fieldDouble acc ^^^ a else fieldDouble acc) 0

/-- The value at `x` of the polynomial with the given coefficients, highest degree first (R122 (c)). -/
def polyEval (coeffs : List Byte) (x : Byte) : Byte :=
  coeffs.foldl (fun acc c => gfMul acc x ^^^ c) 0

/-- The product of two polynomials over GF(2), in 15 bits (R190). -/
def binaryProduct (q g : BitVec 15) : BitVec 15 :=
  (List.range 5).foldl (fun acc k => if q.getLsbD k then acc ^^^ (g <<< k) else acc) 0

/-- The ring distance of a cell from a centre (R142, R144). -/
def ringDistance (x y cx cy : Nat) : Nat := max (absDiff x cx) (absDiff y cy)

/-- A cell of a finder with its border at ring distance `r` (R142): Light at 2 and on the border, 4. -/
def finderRing (r : Nat) : QrModule := if r = 2 ∨ r = 4 then .light else .dark

/-- What MX.BUILD v puts at (x, y), none where the cell stays unreserved (R142 to R147). -/
def patternCell (v x y : Nat) : Option QrModule :=
  let n := 17 + 4 * v
  if ringDistance x y 3 3 ≤ 4 then some (finderRing (ringDistance x y 3 3))
  else if ringDistance x y (n - 4) 3 ≤ 4 then some (finderRing (ringDistance x y (n - 4) 3))
  else if ringDistance x y 3 (n - 4) ≤ 4 then some (finderRing (ringDistance x y 3 (n - 4)))
  else if y = 6 then some (QrModule.ofBit (x % 2 == 0))
  else if x = 6 then some (QrModule.ofBit (y % 2 == 0))
  else if 2 ≤ v ∧ ringDistance x y (n - 7) (n - 7) ≤ 2 then
    some (if ringDistance x y (n - 7) (n - 7) = 1 then .light else .dark)
  else if (x, y) = (8, 4 * v + 9) then some .dark
  else if y = 8 ∧ (x ≤ 8 ∨ n - 8 ≤ x) then some .light
  else if x = 8 ∧ (y ≤ 8 ∨ n - 7 ≤ y) then some .light
  else none

/-- The 2n lines of an n x n grid as functions of the position: n rows, then n columns (R173). -/
def lineCells (n : Nat) (m : Grid QrModule) : List (Nat → Option QrModule) :=
  ((List.range n).map fun y k => m.get? k y) ++ (List.range n).map fun x k => m.get? x k

/-- The stretch of `len` cells from `a` is "a maximal stretch of consecutive equal values" of an n-cell
line (R173). -/
abbrev IsRun (n : Nat) (cell : Nat → Option QrModule) (a len : Nat) : Prop :=
  0 < len ∧ a + len ≤ n ∧ (∀ j < len, cell (a + j) = cell a) ∧
  (a = 0 ∨ cell (a - 1) ≠ cell a) ∧ (a + len = n ∨ cell (a + len) ≠ cell a)

/-- What rule 1 gives for a line: `3 + (len - 5)` for every run of length 5 or more, over all starts and
lengths (R173). -/
def runsPenalty (n : Nat) (cell : Nat → Option QrModule) : Nat :=
  ((square (n + 1)).map fun r => if 5 ≤ r.2 ∧ IsRun n cell r.1 r.2 then 3 + (r.2 - 5) else 0).sum

/-- The sequence P of R175, 1 for Dark. -/
def finderBits : List Bool :=
  [true, false, true, true, true, false, true, false, false, false, false]

/-- The starts s with `s + 11 <= n` at which the line's 11 cells spell the bits (R175). -/
def windowMatches (n : Nat) (bits : List Bool) (cell : Nat → Option QrModule) : Nat :=
  (List.range (n - 10)).countP fun s =>
    (List.range 11).all fun j => cell (s + j) == (bits[j]?).map QrModule.ofBit

end Sys2Proof.Machine
end

