-- ==== Sys2Proof/Certificates/Slice0/Obligations.lean ====
section
/-! DEFINITION. The statements for the provers. Each docstring names the rule of `spec/` it formalises. A next
state written as a record update says the whole frame: every item it does not name is unchanged. -/

open Sys2Proof Sys2Proof.Machine

/-! Encoding -/

/-- Words written out from R83 and R87, and the illegal words of `95_test_vectors.md` section 4. -/
def Obligations.SpecWordsDecode : Prop :=
  decode 0x4003140A = .ok (.mkPred 3 10 20) ∧ decode 0x00000000 = .ok .nop ∧
  decode 0x0300001F = .ok (.csrRd 31) ∧ decode 0x40FFFFFF = .ok (.mkPred 255 255 255) ∧
  decode 0x390002FF = .ok (.dlRd 767) ∧ decode 0x20001002 = .ok (.cwWr 2 0x10) ∧
  decode 0x24000203 = .ok (.rsEnc 3 2) ∧ decode 0x31000D08 = .ok (.modRd 8 13) ∧
  decode 0x12000703 = .ok (.gfMul 3 7) ∧ decode 0x5000000D = .ok (.fmtEnc 13) ∧
  (∀ w ∈ [0x00000001#32, 0x03000100#32, 0x39010000#32, 0x42000001#32],
    decode w = .error .mustBeZero) ∧
  (∀ w ∈ [0x04000000#32, 0x13000000#32, 0x25000000#32, 0x32000000#32, 0x3A000000#32, 0x43000000#32,
      0x52000000#32, 0xFF000000#32],
    decode w = .error .unknownOpcode)

/-- No bit of an encoding is dropped: every well-formed command, with every operand at every value its
field admits, decodes back to itself (R83, R84, R87). -/
def Obligations.DecodeOfEncodeIsTheCommand : Prop :=
  ∀ i : Instr, i.wellFormed = true → decode (encode i) = .ok i

/-- Each command has one word: what a word decodes to is well formed and encodes back to that word (R84,
R87). -/
def Obligations.EncodeOfDecodeIsTheWord : Prop :=
  ∀ (w : Word) (i : Instr), decode w = .ok i → i.wellFormed = true ∧ encode i = w

/-- R84: the row with OP = w[31:24] decides; without one the word is illegal; with one it is that command
exactly when `(w and mask) = match`; two rows never match the same word, because their OP values differ.
Decoding depends on no state: `decode` takes the word alone. -/
def Obligations.DecodingFollowsTheOpcodeMap : Prop :=
  (∀ r ∈ opcodeMap, ∀ r' ∈ opcodeMap, r.op = r'.op → r = r') ∧
  (∀ w : Word, (∀ r ∈ opcodeMap, r.op ≠ (w >>> 24).toNat) → ∀ i, decode w ≠ .ok i) ∧
  (∀ w : Word, ∀ r ∈ opcodeMap, r.op = (w >>> 24).toNat →
    ((∃ i, decode w = .ok i ∧ i.mnemonic = r.mnemonic) ↔ w &&& r.mask = r.code) ∧
    ((∃ i, decode w = .ok i) ↔ w &&& r.mask = r.code)) ∧
  (∀ w : Word, ∀ r ∈ opcodeMap, ∀ r' ∈ opcodeMap,
    w &&& r.mask = r.code → w &&& r'.mask = r'.code → r = r')

/-- R86: the words that decode to no command are those of the 235 unlisted OP values and those of a listed
one with a must-be-zero bit set; issuing one faults with IllegalCommand, code 1, when ERR = 0 and is ignored
when ERR = 1. -/
def Obligations.IllegalWordFaultsOrIsIgnored : Prop :=
  (opcodeMap.map OpcodeRow.op).Nodup ∧ opcodeMap.length = 256 - 235 ∧ ErrCode.illegalCommand.code = 1 ∧
  ∀ w : Word,
    ((∀ i, decode w ≠ .ok i) ↔
      (∀ r ∈ opcodeMap, r.op ≠ (w >>> 24).toNat) ∨
      ∃ r ∈ opcodeMap, r.op = (w >>> 24).toNat ∧ w &&& r.mask ≠ r.code) ∧
    ((∀ i, decode w ≠ .ok i) → ∀ s : State,
      (s.err = false →
        issue w s = .next { s with err := true, errCode := .illegalCommand, errInfo := w }) ∧
      (s.err = true → issue w s = .next s))

/-! The step, the order of checks, faults -/

/-- A step runs the decoded command: the first pending word is issued and leaves the stream, the others stay
in their order (R68); while nothing is pending the machine waits (R252; the stream in State is the model's
own, Log 1, and the waiting step its reading of R252, Log 2). -/
def Obligations.StepRunsTheNextCommand : Prop :=
  (∀ (s : State) (w : Word) (ws : List Word) (i : Instr),
    s.pending = w :: ws → decode w = .ok i → step s = exec i { s with pending := ws }) ∧
  (∀ (s : State) (w : Word) (ws : List Word),
    s.pending = w :: ws → step s = issue w { s with pending := ws }) ∧
  (∀ s : State, s.pending = [] → step s = .next s)

/-- No halt and no lock-up state: every step answers a next state, whatever the state and the word (R242). The
clause on the pending words is the model's choice: that those behind the one issued stay, RESET included, is
Log 1, and that a step answers with nothing pending is Log 2. -/
def Obligations.EveryStepAnswersANextState : Prop :=
  ∀ s : State, ∃ t, step s = .next t ∧ t.pending = s.pending.tail

/-- R230: the first of the five checks that applies decides, and nothing after it: decode, the ERR gate,
the phase, the operand, execution; with its two examples. The admission and operand tables are R236's and
R233's, written apart from the meanings. -/
def Obligations.ChecksAreMadeInOrder : Prop :=
  (∀ (w : Word) (s : State), (∀ i, decode w ≠ .ok i) →
    issue w s =
      .next (if s.err then s else { s with err := true, errCode := .illegalCommand, errInfo := w })) ∧
  (∀ (w : Word) (i : Instr) (s : State), decode w = .ok i →
    (s.err = true → executesInError i = false → issue w s = .next s) ∧
    (s.err = false → admittedIn i s.phase = false →
      issue w s = .next { s with err := true, errCode := .badPhase, errInfo := w }) ∧
    (s.err = false → admittedIn i s.phase = true → ∀ c, operandError i s = some c →
      issue w s = .next { s with err := true, errCode := c, errInfo := w }) ∧
    (s.err = false → admittedIn i s.phase = true → operandError i s = none →
      ∃ t, issue w s = .next t ∧ t.err = false)) ∧
  (∀ s : State, s.err = false → s.phase = .idle →
    issue 0x41000009 s =
      .next { s with err := true, errCode := .badPhase, errInfo := 0x41000009 }) ∧
  (∀ s : State, s.err = false →
    issue 0x41000109 s =
      .next { s with err := true, errCode := .illegalCommand, errInfo := 0x41000109 })

/-- R231: a fault writes ERR, ERRCODE and ERRINFO (the whole command word) and nothing else; it can be raised
only when ERR = 0, so the three describe the first fault since the last CLRERR or RESET. -/
def Obligations.FaultSavesOnlyTheErrorRegisters : Prop :=
  (∀ (w : Word) (s t : State), s.err = false → issue w s = .next t → t.err = true →
    t.errCode ≠ .noError ∧ t = { s with err := true, errCode := t.errCode, errInfo := w }) ∧
  (∀ (w : Word) (s t : State), s.err = true → issue w s = .next t → t.err = true →
    t.errCode = s.errCode ∧ t.errInfo = s.errInfo)

/-- R232: while ERR = 1 the four system commands execute normally, every other command and every illegal
word is ignored (no item changes, RES included), and the ports stay readable. RESET is stated up to the field
`pending`, which is no item of R20 (Log 1). -/
def Obligations.ErrorStateIgnoresAllButFour : Prop :=
  ∀ s : State, s.err = true →
    exec .nop s = .next s ∧
    (∃ t, exec .reset s = .next t ∧ t = { State.reset with pending := t.pending }) ∧
    exec .clrErr s = .next { s with err := false, errCode := .noError, errInfo := 0 } ∧
    (∀ n v, csr n s = some v → exec (.csrRd n) s = .next { s with res := v }) ∧
    (∀ n, n ∉ csrNumbers → exec (.csrRd n) s = .next s) ∧
    (∀ i, executesInError i = false → exec i s = .next s) ∧
    (∀ w : Word, (∀ i, decode w ≠ .ok i) → issue w s = .next s) ∧
    portRead .res s = .ok s.res ∧ portRead .status s = .ok (status s)

/-- R237: CLRERR leaves everything else as it was before the faulting command, so a fault followed by CLRERR
is the state before the fault; RESET clears the error with all other state (stated up to the field `pending`,
which is no item of R20, Log 1); nothing else leaves the error state. -/
def Obligations.ClrErrUndoesAFault : Prop :=
  (∀ (w : Word) (s t : State), s.err = false → ErrorInv s → issue w s = .next t → t.err = true →
    exec .clrErr t = .next s) ∧
  (∀ s : State, ∃ t, exec .reset s = .next t ∧ t = { State.reset with pending := t.pending }) ∧
  (∀ (i : Instr) (s t : State), s.err = true → exec i s = .next t → t.err = false →
    i = .clrErr ∨ i = .reset)

/-- R23: the numbers of the five phases and every transition: MX.BUILD sets 1 from any phase, MX.PLACE takes
1 to 2, MK.SEL 2 to 3, FMT.PUT 3 to 4, RESET sets 0; no other command changes PHASE, and a faulting
command never changes it. -/
def Obligations.PhaseTransitions : Prop :=
  [Phase.idle, .built, .placed, .masked, .done].map Phase.code = [0, 1, 2, 3, 4] ∧
  State.reset.phase = .idle ∧
  (∀ (i : Instr) (s t : State), exec i s = .next t →
    match i with
    | .reset => t.phase = .idle
    | .mxBuild _ => t.phase = if t.err then s.phase else .built
    | .mxPlace _ => t.phase = if t.err then s.phase else .placed
    | .mkSel => t.phase = if t.err then s.phase else .masked
    | .fmtPut _ => t.phase = if t.err then s.phase else .done
    | _ => t.phase = s.phase) ∧
  (∀ (s t : State) (m : Nat), exec (.mxPlace m) s = .next t → t.err = false → s.phase = .built) ∧
  (∀ s t : State, exec .mkSel s = .next t → t.err = false → s.phase = .placed) ∧
  (∀ (s t : State) (l : Nat), exec (.fmtPut l) s = .next t → t.err = false → s.phase = .masked) ∧
  (∀ (w : Word) (s t : State), s.err = false → issue w s = .next t → t.err = true →
    t.phase = s.phase)

/-- The rules R22 and R35 on the error registers and on PENT hold after every step from a state in which they
hold. -/
def Obligations.ErrorRegistersAndPenaltySumStayConsistent : Prop :=
  ∀ s t : State, ErrorInv s → PenaltySumInv s → step s = .next t → ErrorInv t ∧ PenaltySumInv t

/-- Every invariant of the statements below holds at reset (R22 to R37, R250). -/
def Obligations.InvariantsHoldAtReset : Prop :=
  ErrorInv State.reset ∧ PenaltySumInv State.reset ∧ GeneratorInv State.reset ∧
  GeometryInv State.reset ∧ ModuleInv State.reset ∧ FunctionInv State.reset ∧
  ScorerInv State.reset ∧ FormatInv State.reset

/-! System commands and views -/

/-- R200: NOP changes no item, with ERR 0 or 1; any of bits 23:0 set is illegal. -/
def Obligations.NopChangesNothing : Prop :=
  decode 0x00000000 = .ok .nop ∧ (∀ s : State, exec .nop s = .next s) ∧
  ∀ low, 0 < low → low < 2 ^ 24 → IllegalAt low

/-- R201: RESET sets every item of R20 to its reset value, with ERR 0 or 1 and in every phase, exactly as
hardware reset does; any of bits 23:0 set is illegal. That the pending words stay is the model's choice
(Log 1). -/
def Obligations.ResetGivesTheResetState : Prop :=
  decode 0x01000000 = .ok .reset ∧
  (∀ s : State, ∃ t, exec .reset s = .next t ∧ t = hardwareReset s ∧ t.pending = s.pending ∧
    t.res = 0 ∧ t.err = false ∧ t.errCode = .noError ∧ t.errInfo = 0 ∧ t.phase = .idle ∧
    t.ver = 0 ∧ t.size = 0 ∧ t.dlen = 0 ∧ t.ge = 0 ∧ t.maskId = 0 ∧ t.bestPen = 0 ∧
    t.pen1 = 0 ∧ t.pen2 = 0 ∧ t.pen3 = 0 ∧ t.pen4 = 0 ∧ t.pent = 0 ∧ t.fmtReg = 0 ∧
    (∀ p : Fin 8, t.cand[p] = 0) ∧ (∀ j : Fin 100, t.cwbuf[j] = 0) ∧ (∀ j : Fin 21, t.g[j] = 0) ∧
    t.mat = [] ∧ t.rsv = [] ∧ t.dlist = []) ∧
  ∀ low, 0 < low → low < 2 ^ 24 → IllegalAt (0x01000000 + low)

/-- R202: CLRERR clears the three error registers and nothing else, and with ERR = 0 changes nothing (of a
state whose error registers are as R22 says); any of bits 23:0 set is illegal; its example. -/
def Obligations.ClrErrClearsTheErrorRegisters : Prop :=
  decode 0x02000000 = .ok .clrErr ∧
  (∀ s : State, exec .clrErr s = .next { s with err := false, errCode := .noError, errInfo := 0 }) ∧
  (∀ s : State, ErrorInv s → s.err = false → exec .clrErr s = .next s) ∧
  (∀ low, 0 < low → low < 2 ^ 24 → IllegalAt (0x02000000 + low)) ∧
  ∃ t, issue 0x11000000 State.reset = .next t ∧ status t = 0x41 ∧
    ∃ u, exec .clrErr t = .next u ∧ status u = 0

/-- R203 and R41: CSR.RD of each listed number returns the item R41 gives it, with ERR 0 or 1; an
unimplemented number faults with BadOperand when ERR = 0 and is ignored when ERR = 1; B or C not 0 is
illegal; CSR 0 is the word of the STATUS port; the example after GF.LOG 0. -/
def Obligations.CsrReadReturnsTheItem : Prop :=
  (∀ n < 256, decode (BitVec.ofNat 32 (0x03000000 + n)) = .ok (.csrRd n)) ∧
  (∀ s : State,
    let reads (n v : Nat) := exec (.csrRd n) s = .next { s with res := BitVec.ofNat 32 v }
    reads 0x00 (status s).toNat ∧ portRead .status s = .ok (status s) ∧
    reads 0x01 s.errCode.code.toNat ∧ reads 0x02 s.errInfo.toNat ∧ reads 0x03 s.phase.code.toNat ∧
    reads 0x04 s.ver.toNat ∧ reads 0x05 s.size.toNat ∧ reads 0x06 s.dlist.length ∧
    reads 0x08 s.maskId.toNat ∧ reads 0x09 s.bestPen.toNat ∧ reads 0x0A s.fmtReg.toNat ∧
    reads 0x0B s.ge.toNat ∧ reads 0x10 s.pen1.toNat ∧ reads 0x11 s.pen2.toNat ∧
    reads 0x12 s.pen3.toNat ∧ reads 0x13 s.pen4.toNat ∧ reads 0x14 s.pent.toNat ∧
    ∀ p : Fin 8, reads (0x18 + p.val) s.cand[p].toNat) ∧
  (∀ (s : State) (n : Nat), n ∉ csrNumbers →
    exec (.csrRd n) s =
      .next (if s.err then s else raise .badOperand (encode (.csrRd n)) s)) ∧
  (∀ bc n, 0 < bc → bc < 65536 → n < 256 → IllegalAt (0x03000000 + bc * 256 + n)) ∧
  ∃ t, issue 0x11000000 State.reset = .next t ∧
    exec (.csrRd 2) t = .next { t with res := 0x11000000 } ∧
    exec (.csrRd 1) t = .next { t with res := 4 }

/-- R40: the bits of STATUS, its two readers, and its value after reset; the values that its ERRCODE field
takes, from the table of R233. -/
def Obligations.StatusLayout : Prop :=
  (∀ s : State, (status s).toNat =
    s.err.toNat + 2 * s.phase.code.toNat + 16 * s.errCode.code.toNat + 256 * s.ver.toNat +
      4096 * s.maskId.toNat) ∧
  (∀ s : State, portRead .status s = .ok (status s) ∧ csr 0x00 s = some (status s)) ∧
  status State.reset = 0 ∧
  [ErrCode.noError, .illegalCommand, .badPhase, .badOperand, .logZero, .unsupportedVersion].map
    ErrCode.code = [0, 1, 2, 3, 4, 5]

/-- R62: the three ports by word index from the base; a write of CMD issues the word and has completed when
it returns; reads of RES and STATUS return the register and the view; the other accesses have no move. The refusal is the
model's form of that (Log 11), and that an access goes ahead of the pending words is its choice (Log 20). -/
def Obligations.PortsIssueAndRead : Prop :=
  (∀ base : Nat, portAt base base = some .cmd ∧ portAt base (base + 1) = some .res ∧
    portAt base (base + 2) = some .status ∧
    ∀ addr, addr < base ∨ base + 2 < addr → portAt base addr = none) ∧
  (∀ (w : Word) (s : State), portWrite .cmd w s = issue w s) ∧
  (∀ s : State, portRead .res s = .ok s.res ∧ portRead .status s = .ok (status s) ∧
    portRead .cmd s = .error .undefinedPortAccess) ∧
  ∀ (w : Word) (s : State), portWrite .res w s = .refused .undefinedPortAccess ∧
    portWrite .status w s = .refused .undefinedPortAccess

/-- R67: a read command that does not fault changes only RES and issuing it again leaves the same state; so do
the repeatable writers; MX.PLACE, MK.SEL and FMT.PUT fault with BadPhase when issued again. -/
def Obligations.ReadsChangeOnlyResAndRepeat : Prop :=
  (∀ (i : Instr) (s t : State),
    (match i with
      | .gfExp _ | .gfLog _ | .gfMul _ _ | .cwRd _ | .gRd _ | .modRd _ _ | .dlRd _ | .csrRd _
      | .mkPred _ _ _ | .fmtEnc _ => True
      | _ => False) →
    exec i s = .next t → t.err = s.err → t = { s with res := t.res } ∧ exec i t = .next t) ∧
  (∀ (i : Instr) (s t : State),
    (match i with
      | .cwWr _ _ | .rsGen _ | .rsEnc _ _ | .mxBuild _ | .mkScore _ => True
      | _ => False) →
    exec i s = .next t → t.err = s.err → exec i t = .next t) ∧
  (∀ (i : Instr) (s t : State),
    (match i with
      | .mxPlace _ | .mkSel | .fmtPut _ => True
      | _ => False) →
    s.err = false → exec i s = .next t → t.err = false →
    exec i t = .next (raise .badPhase (encode i) t))

/-! GF(256) -/

/-- R100: the recurrence of EXP and what follows from it. -/
def Obligations.ExpFollowsTheRecurrence : Prop :=
  expAt 0 = 1 ∧
  (∀ i < 511, (expAt (i + 1)).toNat =
    if (2 * (expAt i).toNat).testBit 8 then (2 * (expAt i).toNat) ^^^ 0x11D
    else 2 * (expAt i).toNat) ∧
  (∀ i < 512, expAt i ≠ 0) ∧ (∀ i < 512, 255 ≤ i → expAt i = expAt (i - 255)) ∧
  expAt 255 = 1 ∧ expAt 256 = 2 ∧ expAt 510 = 1 ∧ expAt 511 = 2

/-- R101: LOG[a] is the unique i in 0..254 with EXP[i] = a; there is no LOG[0]. -/
def Obligations.LogIsTheUniqueExponent : Prop :=
  (∀ a : Byte, a ≠ 0 → ∃ i ≤ 254, logAt a = some i ∧ expAt i = a ∧
    ∀ j ≤ 254, expAt j = a → j = i) ∧
  logAt 0 = none ∧ logAt 1 = some 0 ∧ logAt 2 = some 1

/-- R102: mul by the two tables, with and without the reduction of the index, and as the product of
polynomials over GF(2) modulo 0x11D, which `fieldProduct` computes bit by bit without the tables. -/
def Obligations.MulIsTheFieldProduct : Prop :=
  (∀ a b : Byte, a = 0 ∨ b = 0 → gfMul a b = 0) ∧
  (∀ (a b : Byte) (i j : Nat), logAt a = some i → logAt b = some j →
    i + j ≤ 508 ∧ gfMul a b = expAt ((i + j) % 255) ∧ gfMul a b = expAt (i + j)) ∧
  ∀ a b : Byte, gfMul a b = fieldProduct a b

/-- R106: the laws of the field arithmetic. -/
def Obligations.FieldLaws : Prop :=
  (∀ a b : Byte, gfMul a b = gfMul b a) ∧ (∀ a : Byte, gfMul a 1 = a) ∧ (∀ a : Byte, gfMul a 0 = 0) ∧
  (∀ a b c : Byte, gfMul a (gfMul b c) = gfMul (gfMul a b) c) ∧
  (∀ a b c : Byte, gfMul a (b ^^^ c) = gfMul a b ^^^ gfMul a c) ∧
  (∀ a b : Byte, gfMul a b = 0 → a = 0 ∨ b = 0) ∧
  (∀ a : Byte, (gfMul 2 a).toNat =
    if 128 ≤ a.toNat then (2 * a.toNat) ^^^ 0x11D else 2 * a.toNat) ∧
  ∀ i j : Nat, gfMul (expAt i) (expAt j) = expAt ((i + j) % 255)

/-- R103: GF.EXP, its encoding, result, faults and corner cases. -/
def Obligations.GfExpReadsTheTable : Prop :=
  (∀ i < 65536, decode (BitVec.ofNat 32 (0x10000000 + i)) = .ok (.gfExp i)) ∧
  (∀ (i : Nat) (s : State), s.err = false → i ≤ 511 →
    exec (.gfExp i) s = .next { s with res := (expAt i).setWidth 32 }) ∧
  (∀ (i : Nat) (s : State), s.err = false → 511 < i →
    exec (.gfExp i) s = .next (raise .badOperand (encode (.gfExp i)) s)) ∧
  (∀ c imm, 0 < c → c < 256 → imm < 65536 → IllegalAt (0x10000000 + c * 65536 + imm)) ∧
  expAt 0 = 1 ∧ expAt 255 = 1 ∧ expAt 510 = 1 ∧ expAt 511 = 2 ∧ expAt 8 = 29

/-- R104: GF.LOG, its encoding, result, faults and corner cases. -/
def Obligations.GfLogReadsTheTable : Prop :=
  (∀ a : Byte, decode (BitVec.ofNat 32 (0x11000000 + a.toNat)) = .ok (.gfLog a)) ∧
  (∀ (a : Byte) (s : State), s.err = false → a ≠ 0 →
    ∃ i, logAt a = some i ∧ exec (.gfLog a) s = .next { s with res := BitVec.ofNat 32 i }) ∧
  (∀ s : State, s.err = false →
    exec (.gfLog 0) s = .next (raise .logZero 0x11000000 s)) ∧
  (∀ bc a, 0 < bc → bc < 65536 → a < 256 → IllegalAt (0x11000000 + bc * 256 + a)) ∧
  logAt 1 = some 0 ∧ logAt 2 = some 1 ∧ logAt 255 = some 175 ∧ logAt 29 = some 8

/-- R105: GF.MUL, its encoding, result and corner cases; no operand fault. -/
def Obligations.GfMulReturnsTheProduct : Prop :=
  (∀ a b : Byte, decode (BitVec.ofNat 32 (0x12000000 + b.toNat * 256 + a.toNat)) =
    .ok (.gfMul a b)) ∧
  (∀ (a b : Byte) (s : State), s.err = false →
    exec (.gfMul a b) s = .next { s with res := (gfMul a b).setWidth 32 }) ∧
  (∀ c ba, 0 < c → c < 256 → ba < 65536 → IllegalAt (0x12000000 + c * 65536 + ba)) ∧
  (∀ b : Byte, gfMul 0 b = 0 ∧ gfMul b 0 = 0 ∧ gfMul 1 b = b) ∧
  gfMul 2 128 = 29 ∧ gfMul 255 255 = 226 ∧ gfMul 3 7 = 9

/-! Codeword buffer and Reed-Solomon engine -/

/-- R125: CW.WR writes one byte of CWBUF and nothing else; its encoding and faults. -/
def Obligations.CwWrWritesOneByte : Prop :=
  (∀ idx < 256, ∀ val : Byte,
    decode (BitVec.ofNat 32 (0x20000000 + val.toNat * 256 + idx)) = .ok (.cwWr idx val)) ∧
  (∀ (idx : Nat) (val : Byte) (s : State), s.err = false → idx ≤ 99 →
    ∃ t, exec (.cwWr idx val) s = .next t ∧ t = { s with cwbuf := t.cwbuf } ∧
      ∀ j : Fin 100, t.cwbuf[j] = if j.val = idx then val else s.cwbuf[j]) ∧
  (∀ (idx : Nat) (val : Byte) (s : State), s.err = false → 99 < idx →
    exec (.cwWr idx val) s = .next (raise .badOperand (encode (.cwWr idx val)) s)) ∧
  ∀ c ba, 0 < c → c < 256 → ba < 65536 → IllegalAt (0x20000000 + c * 65536 + ba)

/-- R126: CW.RD returns one byte of CWBUF and changes nothing else; a byte never written since reset reads 0;
after CW.WR 2, 0x10, CW.RD 2 gives 16. -/
def Obligations.CwRdReturnsOneByte : Prop :=
  (∀ idx < 256, decode (BitVec.ofNat 32 (0x21000000 + idx)) = .ok (.cwRd idx)) ∧
  (∀ (j : Fin 100) (s : State), s.err = false →
    exec (.cwRd j.val) s = .next { s with res := s.cwbuf[j].setWidth 32 }) ∧
  (∀ (idx : Nat) (s : State), s.err = false → 99 < idx →
    exec (.cwRd idx) s = .next (raise .badOperand (encode (.cwRd idx)) s)) ∧
  (∀ bc idx, 0 < bc → bc < 65536 → idx < 256 → IllegalAt (0x21000000 + bc * 256 + idx)) ∧
  (∀ j : Fin 100, State.reset.cwbuf[j] = 0) ∧
  ∀ s : State, s.err = false → ∃ t, exec (.cwWr 2 0x10) s = .next t ∧
    exec (.cwRd 2) t = .next { t with res := 16 }

/-- R127 and R123: RS.GEN loads G for e and returns e; its encoding, faults and example. -/
def Obligations.RsGenLoadsTheGenerator : Prop :=
  (∀ e < 256, decode (BitVec.ofNat 32 (0x22000000 + e)) = .ok (.rsGen e)) ∧
  (∀ (e : Nat) (s : State), s.err = false → 1 ≤ e → e ≤ 20 →
    ∃ t, exec (.rsGen e) s = .next t ∧
      t = { s with g := t.g, ge := t.ge, res := BitVec.ofNat 32 e } ∧ t.ge.toNat = e ∧
      ∀ j : Fin 21, t.g[j] = if j.val ≤ e then (genPoly e).getD j.val 0 else 0) ∧
  (∀ (e : Nat) (s : State), s.err = false → e = 0 ∨ 20 < e →
    exec (.rsGen e) s = .next (raise .badOperand (encode (.rsGen e)) s)) ∧
  (∀ bc e, 0 < bc → bc < 65536 → e < 256 → IllegalAt (0x22000000 + bc * 256 + e)) ∧
  genPoly 7 = [1, 127, 122, 154, 164, 11, 68, 117]

/-- R128: G.RD returns one coefficient; it faults where the file is empty or the index is above GE; after
RS.GEN 7, G.RD 1 gives 127; G.RD 0 gives 1 in a state whose file is as R28 says. -/
def Obligations.GRdReturnsOneCoefficient : Prop :=
  (∀ j < 256, decode (BitVec.ofNat 32 (0x23000000 + j)) = .ok (.gRd j)) ∧
  (∀ (j : Fin 21) (s : State), s.err = false → s.ge ≠ 0 → j.val ≤ s.ge.toNat →
    exec (.gRd j.val) s = .next { s with res := s.g[j].setWidth 32 }) ∧
  (∀ (j : Nat) (s : State), s.err = false → s.ge = 0 ∨ s.ge.toNat < j →
    exec (.gRd j) s = .next (raise .badOperand (encode (.gRd j)) s)) ∧
  (∀ bc j, 0 < bc → bc < 65536 → j < 256 → IllegalAt (0x23000000 + bc * 256 + j)) ∧
  (∀ s : State, GeneratorInv s → s.err = false → s.ge ≠ 0 →
    exec (.gRd 0) s = .next { s with res := 1 }) ∧
  ∀ s : State, s.err = false → ∃ t, exec (.rsGen 7) s = .next t ∧
    exec (.gRd 1) t = .next { t with res := 127 }

/-- R129, R123 and R124: RS.ENC reads CWBUF[0..k-1], writes the remainder to CWBUF[k..k+e-1] and nothing else
of CWBUF, loads G for e and returns k + e; its encoding, faults and worked example. -/
def Obligations.RsEncWritesTheRemainder : Prop :=
  (∀ k < 256, ∀ e < 256,
    decode (BitVec.ofNat 32 (0x24000000 + e * 256 + k)) = .ok (.rsEnc k e)) ∧
  (∀ (k e : Nat) (s : State), s.err = false → 1 ≤ e → e ≤ 20 → k + e ≤ 100 →
    ∃ t, exec (.rsEnc k e) s = .next t ∧
      t = { s with cwbuf := t.cwbuf, g := t.g, ge := t.ge, res := BitVec.ofNat 32 (k + e) } ∧
      t.ge.toNat = e ∧
      (∀ j : Fin 21, t.g[j] = if j.val ≤ e then (genPoly e).getD j.val 0 else 0) ∧
      (rsRem (s.cwbuf.toList.take k) e).length = e ∧
      ∀ j : Fin 100, t.cwbuf[j] =
        if k ≤ j.val ∧ j.val < k + e then (rsRem (s.cwbuf.toList.take k) e).getD (j.val - k) 0
        else s.cwbuf[j]) ∧
  (∀ (k e : Nat) (s : State), s.err = false → e = 0 ∨ 20 < e ∨ 100 < k + e →
    exec (.rsEnc k e) s = .next (raise .badOperand (encode (.rsEnc k e)) s)) ∧
  (∀ c ba, 0 < c → c < 256 → ba < 65536 → IllegalAt (0x24000000 + c * 65536 + ba)) ∧
  (∀ e : Nat, rsRem [] e = List.replicate e 0) ∧
  (∀ k e : Nat, rsRem (List.replicate k 0) e = List.replicate e 0) ∧
  rsRem [0x12, 0x34, 0x56] 2 = [0x98, 0xE8]

/-- GENPOLY(e) is monic of degree e and vanishes exactly where it should: EXP[0..e-1] are roots of it, for
every e (R120, R122 (c)); for the lengths in scope no coefficient is zero (R122 (f)). -/
def Obligations.GeneratorHasItsRoots : Prop :=
  (∀ e : Nat, (genPoly e).length = e + 1 ∧ (genPoly e).head? = some 1 ∧
    ∀ i < e, polyEval (genPoly e) (expAt i) = 0) ∧
  ∀ e ≤ 20, 1 ≤ e → ∀ c ∈ genPoly e, c ≠ 0

/-- The headline of the engine (R122 (c)): after RS.ENC the k + e bytes of the buffer, read as a polynomial
with CWBUF[0] the highest coefficient, are a codeword: all e syndromes are zero. The data stay in place
and every byte behind the block is unchanged (R124). -/
def Obligations.RsEncLeavesACodeword : Prop :=
  ∀ (k e : Nat) (s : State), s.err = false → 1 ≤ e → e ≤ 20 → k + e ≤ 100 →
    ∃ t, exec (.rsEnc k e) s = .next t ∧
      (∀ i < e, polyEval (t.cwbuf.toList.take (k + e)) (expAt i) = 0) ∧
      t.cwbuf.toList.take k = s.cwbuf.toList.take k ∧
      t.cwbuf.toList.drop (k + e) = s.cwbuf.toList.drop (k + e)

/-- R122 (d): RSREM is linear over data of equal length. -/
def Obligations.RemainderIsLinear : Prop :=
  ∀ (a b : List Byte) (e : Nat), a.length = b.length →
    (rsRem a e).length = e ∧
    rsRem (List.zipWith (· ^^^ ·) a b) e = List.zipWith (· ^^^ ·) (rsRem a e) (rsRem b e)

/-- R28: the generator file holds GENPOLY(GE) and zeros after every step from a state in which it does. -/
def Obligations.GeneratorFileStaysConsistent : Prop :=
  ∀ s t : State, GeneratorInv s → step s = .next t → GeneratorInv t

/-! Matrix builder -/

/-- MX.BUILD (R140): the whole next state, in any phase; the fault of a version outside 1..4; the encoding;
MX.BUILD directly after MX.BUILD gives the same state; RES and STATUS of its example. -/
def Obligations.MxBuildStartsAFreshMatrix : Prop :=
  (∀ v < 256, decode (BitVec.ofNat 32 (0x30000000 + v)) = .ok (.mxBuild v)) ∧
  (∀ (v : Nat) (s : State), s.err = false → 1 ≤ v → v ≤ 4 →
    ∃ t, exec (.mxBuild v) s = .next t ∧
      t = { s with
        ver := t.ver, size := t.size, mat := (functionPatterns v).mat, rsv := (functionPatterns v).rsv,
        dlist := [], maskId := 0, bestPen := 0, pen1 := 0, pen2 := 0, pen3 := 0, pen4 := 0, pent := 0,
        cand := t.cand, fmtReg := 0, phase := .built, res := BitVec.ofNat 32 (17 + 4 * v) } ∧
      t.ver.toNat = v ∧ t.size.toNat = 17 + 4 * v ∧ (∀ p : Fin 8, t.cand[p] = 0) ∧
      exec (.mxBuild v) t = .next t) ∧
  (∀ (v : Nat) (s : State), s.err = false → v = 0 ∨ 4 < v →
    exec (.mxBuild v) s = .next (raise .unsupportedVersion (encode (.mxBuild v)) s)) ∧
  (∀ bc v, 0 < bc → bc < 65536 → v < 256 → IllegalAt (0x30000000 + bc * 256 + v)) ∧
  ∃ t, exec (.mxBuild 1) State.reset = .next t ∧ t.res = 21 ∧ status t = 0x102

/-- The function patterns cell by cell, for every version (R142 to R147): both grids are SIZE x SIZE, each cell
holds what the closed form `patternCell` gives, is reserved exactly where it gives something and Unset
elsewhere; the counts of R148. The alignment centres are the spec's I1 (Log 9). -/
def Obligations.FunctionPatternsCellByCell : Prop :=
  (∀ v ∈ [1, 2, 3, 4],
    (functionPatterns v).mat.wf (17 + 4 * v) = true ∧ (functionPatterns v).rsv.wf (17 + 4 * v) = true ∧
    ∀ x < 17 + 4 * v, ∀ y < 17 + 4 * v,
      (functionPatterns v).mat.get? x y = some ((patternCell v x y).getD .unset) ∧
      (functionPatterns v).rsv.get? x y = some (patternCell v x y).isSome) ∧
  [1, 2, 3, 4].map (fun v => (functionPatterns v).rsv.flatten.count true) = [233, 266, 274, 282] ∧
  [1, 2, 3, 4].map (fun v => (functionPatterns v).mat.flatten.count .dark) = [106, 127, 131, 135] ∧
  [1, 2, 3, 4].map (fun v => (functionPatterns v).mat.flatten.count .unset) = [208, 359, 567, 807]

/-- R149: MOD.RD returns the module's code, plus 4 where it is reserved; BadPhase in IDLE; BadOperand outside
the grid; its encoding and examples. -/
def Obligations.ModRdReturnsTheModule : Prop :=
  (∀ x < 256, ∀ y < 256,
    decode (BitVec.ofNat 32 (0x31000000 + y * 256 + x)) = .ok (.modRd x y)) ∧
  (∀ (x y : Nat) (s : State), GeometryInv s → s.err = false → s.phase ≠ .idle →
    x < s.size.toNat → y < s.size.toNat →
    ∃ m r, s.mat.get? x y = some m ∧ s.rsv.get? x y = some r ∧
      exec (.modRd x y) s =
        .next { s with res := BitVec.ofNat 32 (m.code + 4 * r.toNat) }) ∧
  (∀ (x y : Nat) (s : State), s.err = false → s.phase = .idle →
    exec (.modRd x y) s = .next (raise .badPhase (encode (.modRd x y)) s)) ∧
  (∀ (x y : Nat) (s : State), s.err = false → s.phase ≠ .idle →
    s.size.toNat ≤ x ∨ s.size.toNat ≤ y →
    exec (.modRd x y) s = .next (raise .badOperand (encode (.modRd x y)) s)) ∧
  (∀ c ba, 0 < c → c < 256 → ba < 65536 → IllegalAt (0x31000000 + c * 65536 + ba)) ∧
  [QrModule.light, .dark, .unset].map QrModule.code = [0, 1, 2] ∧
  ∃ t, exec (.mxBuild 1) State.reset = .next t ∧
    exec (.modRd 8 13) t = .next { t with res := 5 } ∧
    exec (.modRd 10 10) t = .next { t with res := 2 }

/-! Data placer -/

/-- The traversal for every version (R161 (a) to (c), R164): the column pairs and their alternating
directions, the cell at every position of the visit order, every cell outside column 6 visited exactly once,
the free cells exactly the unreserved cells, and the landmarks R164 names for versions 1 and 2. -/
def Obligations.TraversalVisitsEachFreeCellOnce : Prop :=
  (∀ v ∈ [1, 2, 3, 4],
    let n := 17 + 4 * v
    let free := freeCells n (functionPatterns v).rsv
    (columnPairs n (n - 1) true).map Prod.fst =
      ((List.range ((n - 7) / 2)).map fun k => n - 1 - 2 * k) ++ [5, 3, 1] ∧
    (columnPairs n (n - 1) true).map Prod.snd =
      (List.range ((n - 1) / 2)).map (fun k => k % 2 == 0) ∧
    (∀ k < (n - 1) / 2, ∀ t < n,
      let right := if k < (n - 7) / 2 then n - 1 - 2 * k else n - 2 - 2 * k
      let y := if k % 2 = 0 then n - 1 - t else t
      (visitOrder n)[2 * (n * k + t)]? = some (right, y) ∧
      (visitOrder n)[2 * (n * k + t) + 1]? = some (right - 1, y)) ∧
    (visitOrder n).length = n * (n - 1) ∧ (visitOrder n).Nodup ∧
    (∀ x < n, ∀ y < n, (x, y) ∈ visitOrder n ↔ x ≠ 6) ∧
    free.Nodup ∧ free.length = Config.freeModules v ∧
    ∀ x < n, ∀ y < n, (x, y) ∈ free ↔ (functionPatterns v).rsv.get? x y = some false) ∧
  (let free := freeCells 21 (functionPatterns 1).rsv
   free.take 4 = [(20, 20), (19, 20), (20, 19), (19, 19)] ∧ free[23]? = some (19, 9) ∧
   free[24]? = some (18, 9) ∧ free[207]? = some (0, 12)) ∧
  (freeCells 25 (functionPatterns 2).rsv).take 4 = [(24, 24), (23, 24), (24, 23), (23, 23)] ∧
  (freeCells 25 (functionPatterns 2).rsv).drop 352 =
    [(0, 13), (1, 14), (0, 14), (1, 15), (0, 15), (1, 16), (0, 16)]

/-- MX.PLACE (R160, R161 (c) to (e), R163): the free cells in traversal order take the stream bits, most
significant first, and 0 beyond the stream; MAT holds them and is unchanged elsewhere; DLEN is
FREE_MODULES; the rest of the state is unchanged; the faults and the encoding. -/
def Obligations.MxPlaceRoutesTheStream : Prop :=
  (∀ m < 256, decode (BitVec.ofNat 32 (0x38000000 + m)) = .ok (.mxPlace m)) ∧
  (∀ (m : Nat) (s : State), GeometryInv s → s.err = false → s.phase = .built → m ≤ 100 →
    ∃ t, exec (.mxPlace m) s = .next t ∧
      t = { s with mat := t.mat, dlist := t.dlist, phase := .placed,
                   res := BitVec.ofNat 32 (Config.freeModules s.ver.toNat) } ∧
      dlistCells t = freeCells s.size.toNat s.rsv ∧
      t.dlist.length = Config.freeModules s.ver.toNat ∧
      (∀ (i : Nat) (e : Entry), t.dlist[i]? = some e →
        e.value = (decide (i < 8 * m) && (readCw (i / 8) s).getLsbD (7 - i % 8))) ∧
      (∀ e ∈ t.dlist, t.mat.get? e.x e.y = some (QrModule.ofBit e.value)) ∧
      ∀ x y : Nat, (x, y) ∉ dlistCells t → t.mat.get? x y = s.mat.get? x y) ∧
  (∀ (m : Nat) (s : State), s.err = false → s.phase ≠ .built →
    exec (.mxPlace m) s = .next (raise .badPhase (encode (.mxPlace m)) s)) ∧
  (∀ (m : Nat) (s : State), s.err = false → s.phase = .built → 100 < m →
    exec (.mxPlace m) s = .next (raise .badOperand (encode (.mxPlace m)) s)) ∧
  ∀ bc m, 0 < bc → bc < 65536 → m < 256 → IllegalAt (0x38000000 + bc * 256 + m)

/-- R162: DL.RD returns `x + 256*y + 65536*v` of one entry; BadPhase in IDLE and BUILT; BadOperand from DLEN on;
its encoding and the words of its example. -/
def Obligations.DlRdReturnsOneEntry : Prop :=
  (∀ i < 65536, decode (BitVec.ofNat 32 (0x39000000 + i)) = .ok (.dlRd i)) ∧
  (∀ (i : Nat) (e : Entry) (s : State), s.err = false → s.phase ≠ .idle → s.phase ≠ .built →
    s.dlist[i]? = some e →
    exec (.dlRd i) s =
      .next { s with res := BitVec.ofNat 32 (e.x + 256 * e.y + 65536 * e.value.toNat) }) ∧
  (∀ (i : Nat) (s : State), s.err = false → s.phase = .idle ∨ s.phase = .built →
    exec (.dlRd i) s = .next (raise .badPhase (encode (.dlRd i)) s)) ∧
  (∀ (i : Nat) (s : State), s.err = false → s.phase ≠ .idle → s.phase ≠ .built →
    s.dlist.length ≤ i →
    exec (.dlRd i) s = .next (raise .badOperand (encode (.dlRd i)) s)) ∧
  (∀ c imm, 0 < c → c < 256 → imm < 65536 → IllegalAt (0x39000000 + c * 65536 + imm)) ∧
  (Entry.mk 20 20 true).toNat = 0x00011414 ∧ (Entry.mk 20 19 true).toNat = 0x00011314

/-! Mask scorer -/

/-- R179 and R170: MK.PRED returns the predicate of the table; BadOperand for p > 7; its encoding and examples. -/
def Obligations.MkPredReturnsThePredicate : Prop :=
  (∀ p < 256, ∀ x < 256, ∀ y < 256,
    decode (BitVec.ofNat 32 (0x40000000 + p * 65536 + y * 256 + x)) = .ok (.mkPred p x y)) ∧
  (∀ (p x y : Nat) (s : State), s.err = false → p ≤ 7 →
    exec (.mkPred p x y) s = .next { s with res := if maskPred p x y then 1 else 0 }) ∧
  (∀ (p x y : Nat) (s : State), s.err = false → 7 < p →
    exec (.mkPred p x y) s = .next (raise .badOperand (encode (.mkPred p x y)) s)) ∧
  (∀ x y : Nat,
    (maskPred 0 x y = true ↔ (x + y) % 2 = 0) ∧ (maskPred 1 x y = true ↔ y % 2 = 0) ∧
    (maskPred 2 x y = true ↔ x % 3 = 0) ∧ (maskPred 3 x y = true ↔ (x + y) % 3 = 0) ∧
    (maskPred 4 x y = true ↔ (y / 2 + x / 3) % 2 = 0) ∧
    (maskPred 5 x y = true ↔ x * y % 2 + x * y % 3 = 0) ∧
    (maskPred 6 x y = true ↔ (x * y % 2 + x * y % 3) % 2 = 0) ∧
    (maskPred 7 x y = true ↔ ((x + y) % 2 + x * y % 3) % 2 = 0)) ∧
  (∀ p ≤ 7, maskPred p 0 0 = true) ∧ maskPred 3 10 20 = true ∧ maskPred 5 1 1 = false

/-- CANDIDATE(p) (R171): it holds the masked original bit at each cell of DLIST and equals MAT at every other
cell, so no function module is ever masked. -/
def Obligations.CandidateMasksOnlyDataModules : Prop :=
  ∀ (p : Nat) (s : State), GeometryInv s → hasData s = true →
    (candidate p s).wf s.size.toNat = true ∧
    (∀ e ∈ s.dlist, (candidate p s).get? e.x e.y =
      some (QrModule.ofBit (xor e.value (maskPred p e.x e.y)))) ∧
    (∀ x y : Nat, (x, y) ∉ dlistCells s → (candidate p s).get? x y = s.mat.get? x y) ∧
    ∀ x y : Nat, s.rsv.get? x y = some true → (candidate p s).get? x y = s.mat.get? x y

/-- R173 to R177: on every n x n grid the four rules are the sums the spec gives, counted here over runs, cells
and windows apart from the model's scans: rule 1 gives `3 + (L - 5)` for every maximal run of length L >= 5 of
the 2n lines; rule 2 gives 3 for every 2x2 block of equal cells; rule 3 gives 40 for every line, start and one
of the two patterns that match; rule 4 is `10 * (|20*d - 10*t| div t)`, one of 0, 10, ..., 100. The rules'
examples; and for n <= 33 their bounds, so that no total reaches 2^17. -/
def Obligations.PenaltiesAreBounded : Prop :=
  (∀ (n : Nat) (m : Grid QrModule), m.wf n = true →
    rule1 n m = ((lineCells n m).map (runsPenalty n)).sum ∧
    rule2 m = 3 * (square (n - 1)).countP (fun p =>
      m.get? p.1 p.2 == m.get? (p.1 + 1) p.2 && m.get? p.1 p.2 == m.get? p.1 (p.2 + 1) &&
        m.get? p.1 p.2 == m.get? (p.1 + 1) (p.2 + 1)) ∧
    rule3 n m = 40 * ((lineCells n m).map fun cell =>
      windowMatches n finderBits cell + windowMatches n finderBits.reverse cell).sum ∧
    (let d := (square n).countP fun p => m.get? p.1 p.2 == some .dark
     let t := n * n
     rule4 n m = 10 * ((20 * (d : Int) - 10 * (t : Int)).natAbs / t)) ∧
    (∃ k ≤ 10, rule4 n m = 10 * k)) ∧
  runPenalty ([1, 1, 1, 1, 1, 0, 0, 0, 0, 0, 0, 1].map fun c => QrModule.ofBit (c == 1)) = 7 ∧
  (∀ (n : Nat) (v : QrModule), 5 ≤ n → runPenalty (List.replicate n v) = n - 2) ∧
  (∀ (a b : Nat) (v : QrModule), 1 ≤ a → 1 ≤ b →
    rule2 (List.replicate b (List.replicate a v)) = 3 * (a - 1) * (b - 1)) ∧
  (let line := [0, 0, 0, 0, 1, 0, 1, 1, 1, 0, 1, 0, 0, 0, 0].map fun c => QrModule.ofBit (c == 1)
   40 * (matchesAt finderLike line + matchesAt finderLike.reverse line) = 80) ∧
  [220, 199, 198, 0].map (fun d => balancePenalty d 441) = [0, 0, 10, 100] ∧
  ∀ (n : Nat) (m : Grid QrModule), m.wf n = true → n ≤ 33 →
    rule1 n m ≤ 2 * n * (n - 2) ∧ 2 * n * (n - 2) ≤ 2046 ∧
    rule2 m ≤ 3 * (n - 1) ^ 2 ∧ 3 * (n - 1) ^ 2 ≤ 3072 ∧
    rule3 n m ≤ 40 * (2 * n * (n - 10)) ∧ 40 * (2 * n * (n - 10)) ≤ 60720 ∧
    rule4 n m ≤ 100 ∧ (scoreGrid n m).total < 2 ^ 17

/-- MK.SCORE (R180): latches the four penalties and their sum, returns the sum, changes nothing else; scoring
any candidate first does not change what MK.SEL leaves; the faults and the encoding. -/
def Obligations.MkScoreLatchesThePenalties : Prop :=
  (∀ p < 256, decode (BitVec.ofNat 32 (0x41000000 + p)) = .ok (.mkScore p)) ∧
  (∀ (p : Nat) (s : State), s.err = false → s.phase = .placed → p ≤ 7 →
    let m := candidate p s
    let n := s.size.toNat
    let total := rule1 n m + rule2 m + rule3 n m + rule4 n m
    ∃ t, exec (.mkScore p) s = .next t ∧
      t = { s with
        pen1 := BitVec.ofNat 32 (rule1 n m), pen2 := BitVec.ofNat 32 (rule2 m),
        pen3 := BitVec.ofNat 32 (rule3 n m), pen4 := BitVec.ofNat 32 (rule4 n m),
        pent := BitVec.ofNat 32 total, res := BitVec.ofNat 32 total } ∧
      exec .mkSel t = exec .mkSel s) ∧
  (∀ (p : Nat) (s : State), s.err = false → s.phase ≠ .placed →
    exec (.mkScore p) s = .next (raise .badPhase (encode (.mkScore p)) s)) ∧
  (∀ (p : Nat) (s : State), s.err = false → s.phase = .placed → 7 < p →
    exec (.mkScore p) s = .next (raise .badOperand (encode (.mkScore p)) s)) ∧
  ∀ bc p, 0 < bc → bc < 65536 → p < 256 → IllegalAt (0x41000000 + bc * 256 + p)

/-- R178: MK.SEL commits the least pattern id whose total equals the minimum of the eight totals; MAT becomes
that candidate, DLIST is unchanged, CAND, BESTPEN and PEN1 to PENT are the totals and the winner's
scores. R181: PHASE becomes MASKED and RES MASKID, nothing else changes, a second MK.SEL faults with BadPhase;
the faults, the encoding and the totals of its example. -/
def Obligations.MkSelCommitsTheLeastMinimum : Prop :=
  decode 0x42000000 = .ok .mkSel ∧
  (∀ s : State, s.err = false → s.phase = .placed →
    ∃ t, exec .mkSel s = .next t ∧
      let p := t.maskId.toNat
      let best := score p s
      t = { s with
        mat := candidate p s, maskId := t.maskId, cand := t.cand,
        bestPen := BitVec.ofNat 32 best.total, pen1 := BitVec.ofNat 32 best.r1,
        pen2 := BitVec.ofNat 32 best.r2, pen3 := BitVec.ofNat 32 best.r3,
        pen4 := BitVec.ofNat 32 best.r4, pent := BitVec.ofNat 32 best.total, phase := .masked,
        res := BitVec.ofNat 32 p } ∧
      (∀ q < 8, best.total ≤ (score q s).total) ∧ (∀ q < p, best.total < (score q s).total) ∧
      (∀ q : Fin 8, t.cand[q] = BitVec.ofNat 32 (score q.val s).total) ∧
      (∀ x y : Nat, (x, y) ∉ dlistCells s → t.mat.get? x y = s.mat.get? x y) ∧
      exec .mkSel t = .next (raise .badPhase 0x42000000 t)) ∧
  (selectBest ([371, 682, 519, 584, 581, 578, 767, 549].map fun total => ⟨total, 0, 0, 0⟩)).1 = 0 ∧
  (∀ s : State, s.err = false → s.phase ≠ .placed →
    exec .mkSel s = .next (raise .badPhase 0x42000000 s)) ∧
  ∀ low, 0 < low → low < 2 ^ 24 → IllegalAt (0x42000000 + low)

/-! Format information -/

/-- R190: the constants, the remainder (below 1024, and `v xor r` a multiple of GEN over GF(2)), the three
equal ways to join v and r, and the code's distance of R196. -/
def Obligations.Bch15IsTheRemainderCode : Prop :=
  bchGenerator.toNat = 0x537 ∧ bchGenerator.toNat = 1335 ∧ formatXorMask.toNat = 0x5412 ∧
  formatXorMask.toNat = 21522 ∧
  (∀ d : BitVec 5,
    let v : BitVec 15 := (d.setWidth 15) <<< 10
    let r := bchRemainder v
    v.toNat = d.toNat * 1024 ∧ r.toNat < 1024 ∧
    (∃ q < 32, v ^^^ r = binaryProduct (BitVec.ofNat 15 q) bchGenerator) ∧
    bch15 d = (v ||| r) ^^^ formatXorMask ∧ v ||| r = v ^^^ r ∧ v ||| r = v + r) ∧
  ∀ d d' : BitVec 5, d ≠ d' →
    7 ≤ ((List.range 15).filter fun i => (bch15 d).getLsbD i != (bch15 d').getLsbD i).length

/-- R194: FMT.ENC returns BCH15(d) and writes RES only; BadOperand for d > 31; its encoding and examples. -/
def Obligations.FmtEncReturnsTheCode : Prop :=
  (∀ d < 256, decode (BitVec.ofNat 32 (0x50000000 + d)) = .ok (.fmtEnc d)) ∧
  (∀ (d : Nat) (s : State), s.err = false → d ≤ 31 →
    exec (.fmtEnc d) s = .next { s with res := BitVec.ofNat 32 (bch15 (BitVec.ofNat 5 d)).toNat }) ∧
  (∀ (d : Nat) (s : State), s.err = false → 31 < d →
    exec (.fmtEnc d) s = .next (raise .badOperand (encode (.fmtEnc d)) s)) ∧
  (∀ bc d, 0 < bc → bc < 65536 → d < 256 → IllegalAt (0x50000000 + bc * 256 + d)) ∧
  bch15 0 = 0x5412 ∧ bch15 13 = 0x6318

/-- FMT.PUT (R195, R191): in MASKED with lvl = 1 it writes BCH15(8 + MASKID) to FMTREG, RES and, bit for bit,
to both strips; every other cell of MAT and all other state is unchanged; PHASE is DONE; the faults and the
encoding. It is stated through FMTCELLS1, so it holds for either FMT1_MAP (Log 9). -/
def Obligations.FmtPutWritesBothCopies : Prop :=
  (∀ lvl < 256, decode (BitVec.ofNat 32 (0x51000000 + lvl)) = .ok (.fmtPut lvl)) ∧
  (∀ s : State, GeometryInv s → s.err = false → s.phase = .masked →
    let n := s.size.toNat
    let w := bch15 (BitVec.ofNat 5 (8 + s.maskId.toNat))
    let strip1 (i : Nat) := fmtCells1 Config.fmt1Map i
    let strip2 (i : Nat) := fmtCells2 n i
    ∃ t, exec (.fmtPut 1) s = .next t ∧
      t = { s with mat := t.mat, fmtReg := w, phase := .done, res := BitVec.ofNat 32 w.toNat } ∧
      (∀ i < 15,
        t.mat.get? (strip1 i).1 (strip1 i).2 = some (QrModule.ofBit (w.getLsbD i)) ∧
        t.mat.get? (strip2 i).1 (strip2 i).2 = some (QrModule.ofBit (w.getLsbD i))) ∧
      ∀ x y : Nat, (∀ i < 15, (x, y) ≠ strip1 i ∧ (x, y) ≠ strip2 i) →
        t.mat.get? x y = s.mat.get? x y) ∧
  (∀ (lvl : Nat) (s : State), s.err = false → s.phase ≠ .masked →
    exec (.fmtPut lvl) s = .next (raise .badPhase (encode (.fmtPut lvl)) s)) ∧
  (∀ (lvl : Nat) (s : State), s.err = false → s.phase = .masked → lvl ≠ 1 →
    exec (.fmtPut lvl) s = .next (raise .badOperand (encode (.fmtPut lvl)) s)) ∧
  ∀ bc lvl, 0 < bc → bc < 65536 → lvl < 256 → IllegalAt (0x51000000 + bc * 256 + lvl)

/-- Both strips' cell maps (R192, R193, R191): the cells of the table, fifteen distinct ones each, the two
copies disjoint, together exactly the 30 cells R147 reserves; XPOSE exchanges x and y. -/
def Obligations.FormatCellMaps : Prop :=
  (List.range 15).map (fmtCells1 .std) =
    [(8, 0), (8, 1), (8, 2), (8, 3), (8, 4), (8, 5), (8, 7), (8, 8), (7, 8), (5, 8), (4, 8), (3, 8),
     (2, 8), (1, 8), (0, 8)] ∧
  (∀ i < 15, fmtCells1 .xpose i = ((fmtCells1 .std i).2, (fmtCells1 .std i).1)) ∧
  (List.range 15).map (fmtCells2 21) =
    [(20, 8), (19, 8), (18, 8), (17, 8), (16, 8), (15, 8), (14, 8), (13, 8), (8, 14), (8, 15), (8, 16),
     (8, 17), (8, 18), (8, 19), (8, 20)] ∧
  ∀ v ∈ [1, 2, 3, 4], ∀ map ∈ [Config.Fmt1Map.std, .xpose],
    let cells := (List.range 15).map (fmtCells1 map) ++ (List.range 15).map (fmtCells2 (17 + 4 * v))
    cells.length = 30 ∧ cells.Nodup ∧ ∀ p : Nat × Nat, p ∈ formatCells (17 + 4 * v) ↔ p ∈ cells

/-! Invariants that every step keeps -/

/-- VER, SIZE, PHASE, MAT, RSV and DLIST fit together (R24, R30, R32, R33) after every step from a state in
which they do. -/
def Obligations.GeometryIsKept : Prop :=
  ∀ s t : State, GeometryInv s → step s = .next t → GeometryInv t

/-- In BUILT a cell is Unset exactly when it is unreserved, and no module is left Unset afterwards (R30):
every step keeps it. -/
def Obligations.NoModuleIsLeftUnset : Prop :=
  ∀ s t : State, GeometryInv s → ModuleInv s → step s = .next t → ModuleInv t

/-- "every other function module keeps its MX.BUILD value to the end" (R150), and the format cells their
placeholder until FMT.PUT (R147, R182): every step keeps it. -/
def Obligations.FunctionModulesAreKept : Prop :=
  ∀ s t : State, GeometryInv s → FunctionInv s → step s = .next t → FunctionInv t

/-- MASKID, BESTPEN and CAND describe the least minimum of the eight totals (R34, R36, R183), in the 32-bit
registers themselves: every step keeps it. -/
def Obligations.CommittedMaskStaysOptimal : Prop :=
  ∀ s t : State, GeometryInv s → ScorerInv s → step s = .next t → ScorerInv t

/-- FMTREG names level L and the committed mask, and both format strips read back as it (R37, R191): every
step keeps it. -/
def Obligations.FormatCopiesStayIdentical : Prop :=
  ∀ s t : State, GeometryInv s → FormatInv s → step s = .next t → FormatInv t

/-! Host procedures -/

/-- R210: SELECT_VERSION is the smallest version with capacity, DataTooLong exactly above 78, and on DataTooLong
no command is issued: here for level L, which either LEVEL_POLICY admits (every level is in
GenerateDrawsTheSymbol). -/
def Obligations.SelectVersionIsTheSmallestThatFits : Prop :=
  (∀ len ≤ 78, ∃ v, selectVersion len = .ok v ∧ 1 ≤ v ∧ v ≤ 4 ∧ len ≤ Config.capBytes v ∧
    ∀ u, 1 ≤ u → u < v → Config.capBytes u < len) ∧
  (∀ len, 78 < len → selectVersion len = .error .dataTooLong) ∧
  (∀ payload : List Byte, 78 < payload.length → generate payload .levelL = .error .dataTooLong) ∧
  [1, 2, 3, 4].map Config.capBytes = [17, 32, 53, 78] ∧
  (∀ len, len ≤ 17 → selectVersion len = .ok 1) ∧
  (∀ len, 18 ≤ len → len ≤ 32 → selectVersion len = .ok 2) ∧
  (∀ len, 33 ≤ len → len ≤ 53 → selectVersion len = .ok 3) ∧
  ∀ len, 54 ≤ len → len ≤ 78 → selectVersion len = .ok 4

/-- The numbers of R5's version table. DATA_CODEWORDS in closed form, for every payload that fits (R211, R212):
the indicator nibble, the count and the payload shifted by four bits, the whole terminator, then 0xEC and 0x11
in turn. One block interleaves to its data followed by its ECC (R213). -/
def Obligations.DataCodewordsInClosedForm : Prop :=
  [1, 2, 3, 4].map Config.sizeOf = [21, 25, 29, 33] ∧ [1, 2, 3, 4].map Config.dataCw = [19, 34, 55, 80] ∧
  [1, 2, 3, 4].map Config.eccCw = [7, 10, 15, 20] ∧ [1, 2, 3, 4].map Config.totalCw = [26, 44, 70, 100] ∧
  [1, 2, 3, 4].map Config.capBytes = [17, 32, 53, 78] ∧
  [1, 2, 3, 4].map Config.freeModules = [208, 359, 567, 807] ∧
  [1, 2, 3, 4].map (fun v => Config.freeModules v - 8 * Config.totalCw v) = [0, 7, 7, 7] ∧
  (∀ (payload : List Byte) (v : Nat), 1 ≤ v → v ≤ 4 → payload.length ≤ Config.capBytes v →
    let len := payload.length
    let b (q : Nat) := if q = 0 then len else ((payload[q - 1]?).getD 0).toNat
    (dataCodewords payload v).length = Config.dataCw v ∧
    ∀ q < Config.dataCw v, (dataCodewords payload v)[q]? = some (BitVec.ofNat 8
      (if q = 0 then 0x40 + len / 16
       else if q ≤ len then b (q - 1) % 16 * 16 + b q / 16
       else if q = len + 1 then b len % 16 * 16
       else if (q - (len + 2)) % 2 = 0 then 0xEC else 0x11))) ∧
  ∀ data ecc : List Byte, interleave [⟨data, ecc⟩] = data ++ ecc

/-- GENERATE (R215, R217, R218), for every admitted payload and requested level, from EVERY state: the command
sequence runs without a fault and ends in DONE with one and the same state, whatever the state it began
in (but for the pending words); STATUS is the word step 11 reads; the buffer holds the data and a
codeword; the view has a definite module everywhere. A payload above 78 bytes gives DataTooLong at every level.
The pending words are the model's own field (Log 1); a level other than L is treated as L, which is
LEVEL_POLICY's value NORMALIZE_TO_L (Log 12). -/
def Obligations.GenerateDrawsTheSymbol : Prop :=
  (∀ (payload : List Byte) (level : EccLevel), payload.length ≤ 78 →
    ∃ (v : Nat) (cmds : List Instr) (t : State),
      selectVersion payload.length = .ok v ∧ generate payload level = .ok cmds ∧
      (∀ s : State, issueAll (cmds.map encode) s = .next { t with pending := s.pending }) ∧
      t.err = false ∧ t.phase = .done ∧ t.ver.toNat = v ∧ moduleCount t = 17 + 4 * v ∧
      (status t).toNat = 4 * 2 + 256 * v + 4096 * t.maskId.toNat ∧
      t.cwbuf.toList.take (Config.dataCw v) = dataCodewords payload v ∧
      (∀ i < Config.eccCw v, polyEval (t.cwbuf.toList.take (Config.totalCw v)) (expAt i) = 0) ∧
      t.fmtReg = bch15 (BitVec.ofNat 5 (8 + t.maskId.toNat)) ∧
      ∀ x < moduleCount t, ∀ y < moduleCount t, ∃ b : Bool,
        viewModule x y t = some b.toNat ∧ t.mat.get? x y = some (QrModule.ofBit b)) ∧
  ∀ (payload : List Byte) (level : EccLevel), 78 < payload.length →
    generate payload level = .error .dataTooLong
end

