-- ==== Sys2Proof/Laws/State.lean ====
section
/-! SUPPORT. One lemma per field per named update of the state, so that no later proof unfolds a record
update. -/

namespace Sys2Proof.Machine

variable (s : State)

/-! `raise` -/

@[simp] theorem raise_res (c : ErrCode) (w : Word) : (raise c w s).res = s.res := rfl
@[simp] theorem raise_err (c : ErrCode) (w : Word) : (raise c w s).err = true := rfl
@[simp] theorem raise_errCode (c : ErrCode) (w : Word) : (raise c w s).errCode = c := rfl
@[simp] theorem raise_errInfo (c : ErrCode) (w : Word) : (raise c w s).errInfo = w := rfl
@[simp] theorem raise_phase (c : ErrCode) (w : Word) : (raise c w s).phase = s.phase := rfl
@[simp] theorem raise_ver (c : ErrCode) (w : Word) : (raise c w s).ver = s.ver := rfl
@[simp] theorem raise_size (c : ErrCode) (w : Word) : (raise c w s).size = s.size := rfl
@[simp] theorem raise_cwbuf (c : ErrCode) (w : Word) : (raise c w s).cwbuf = s.cwbuf := rfl
@[simp] theorem raise_g (c : ErrCode) (w : Word) : (raise c w s).g = s.g := rfl
@[simp] theorem raise_ge (c : ErrCode) (w : Word) : (raise c w s).ge = s.ge := rfl
@[simp] theorem raise_mat (c : ErrCode) (w : Word) : (raise c w s).mat = s.mat := rfl
@[simp] theorem raise_rsv (c : ErrCode) (w : Word) : (raise c w s).rsv = s.rsv := rfl
@[simp] theorem raise_dlist (c : ErrCode) (w : Word) : (raise c w s).dlist = s.dlist := rfl
@[simp] theorem raise_maskId (c : ErrCode) (w : Word) : (raise c w s).maskId = s.maskId := rfl
@[simp] theorem raise_bestPen (c : ErrCode) (w : Word) : (raise c w s).bestPen = s.bestPen := rfl
@[simp] theorem raise_pen1 (c : ErrCode) (w : Word) : (raise c w s).pen1 = s.pen1 := rfl
@[simp] theorem raise_pen2 (c : ErrCode) (w : Word) : (raise c w s).pen2 = s.pen2 := rfl
@[simp] theorem raise_pen3 (c : ErrCode) (w : Word) : (raise c w s).pen3 = s.pen3 := rfl
@[simp] theorem raise_pen4 (c : ErrCode) (w : Word) : (raise c w s).pen4 = s.pen4 := rfl
@[simp] theorem raise_pent (c : ErrCode) (w : Word) : (raise c w s).pent = s.pent := rfl
@[simp] theorem raise_cand (c : ErrCode) (w : Word) : (raise c w s).cand = s.cand := rfl
@[simp] theorem raise_fmtReg (c : ErrCode) (w : Word) : (raise c w s).fmtReg = s.fmtReg := rfl
@[simp] theorem raise_pending (c : ErrCode) (w : Word) : (raise c w s).pending = s.pending := rfl

/-! `clearError` -/

@[simp] theorem clearError_res : (clearError s).res = s.res := rfl
@[simp] theorem clearError_err : (clearError s).err = false := rfl
@[simp] theorem clearError_errCode : (clearError s).errCode = .noError := rfl
@[simp] theorem clearError_errInfo : (clearError s).errInfo = 0 := rfl
@[simp] theorem clearError_phase : (clearError s).phase = s.phase := rfl
@[simp] theorem clearError_ver : (clearError s).ver = s.ver := rfl
@[simp] theorem clearError_size : (clearError s).size = s.size := rfl
@[simp] theorem clearError_cwbuf : (clearError s).cwbuf = s.cwbuf := rfl
@[simp] theorem clearError_g : (clearError s).g = s.g := rfl
@[simp] theorem clearError_ge : (clearError s).ge = s.ge := rfl
@[simp] theorem clearError_mat : (clearError s).mat = s.mat := rfl
@[simp] theorem clearError_rsv : (clearError s).rsv = s.rsv := rfl
@[simp] theorem clearError_dlist : (clearError s).dlist = s.dlist := rfl
@[simp] theorem clearError_maskId : (clearError s).maskId = s.maskId := rfl
@[simp] theorem clearError_bestPen : (clearError s).bestPen = s.bestPen := rfl
@[simp] theorem clearError_pen1 : (clearError s).pen1 = s.pen1 := rfl
@[simp] theorem clearError_pen2 : (clearError s).pen2 = s.pen2 := rfl
@[simp] theorem clearError_pen3 : (clearError s).pen3 = s.pen3 := rfl
@[simp] theorem clearError_pen4 : (clearError s).pen4 = s.pen4 := rfl
@[simp] theorem clearError_pent : (clearError s).pent = s.pent := rfl
@[simp] theorem clearError_cand : (clearError s).cand = s.cand := rfl
@[simp] theorem clearError_fmtReg : (clearError s).fmtReg = s.fmtReg := rfl
@[simp] theorem clearError_pending : (clearError s).pending = s.pending := rfl

/-! `setRes` -/

@[simp] theorem setRes_res (v : Word) : (setRes v s).res = v := rfl
@[simp] theorem setRes_err (v : Word) : (setRes v s).err = s.err := rfl
@[simp] theorem setRes_errCode (v : Word) : (setRes v s).errCode = s.errCode := rfl
@[simp] theorem setRes_errInfo (v : Word) : (setRes v s).errInfo = s.errInfo := rfl
@[simp] theorem setRes_phase (v : Word) : (setRes v s).phase = s.phase := rfl
@[simp] theorem setRes_ver (v : Word) : (setRes v s).ver = s.ver := rfl
@[simp] theorem setRes_size (v : Word) : (setRes v s).size = s.size := rfl
@[simp] theorem setRes_cwbuf (v : Word) : (setRes v s).cwbuf = s.cwbuf := rfl
@[simp] theorem setRes_g (v : Word) : (setRes v s).g = s.g := rfl
@[simp] theorem setRes_ge (v : Word) : (setRes v s).ge = s.ge := rfl
@[simp] theorem setRes_mat (v : Word) : (setRes v s).mat = s.mat := rfl
@[simp] theorem setRes_rsv (v : Word) : (setRes v s).rsv = s.rsv := rfl
@[simp] theorem setRes_dlist (v : Word) : (setRes v s).dlist = s.dlist := rfl
@[simp] theorem setRes_maskId (v : Word) : (setRes v s).maskId = s.maskId := rfl
@[simp] theorem setRes_bestPen (v : Word) : (setRes v s).bestPen = s.bestPen := rfl
@[simp] theorem setRes_pen1 (v : Word) : (setRes v s).pen1 = s.pen1 := rfl
@[simp] theorem setRes_pen2 (v : Word) : (setRes v s).pen2 = s.pen2 := rfl
@[simp] theorem setRes_pen3 (v : Word) : (setRes v s).pen3 = s.pen3 := rfl
@[simp] theorem setRes_pen4 (v : Word) : (setRes v s).pen4 = s.pen4 := rfl
@[simp] theorem setRes_pent (v : Word) : (setRes v s).pent = s.pent := rfl
@[simp] theorem setRes_cand (v : Word) : (setRes v s).cand = s.cand := rfl
@[simp] theorem setRes_fmtReg (v : Word) : (setRes v s).fmtReg = s.fmtReg := rfl
@[simp] theorem setRes_pending (v : Word) : (setRes v s).pending = s.pending := rfl

/-! `setResNat` -/

@[simp] theorem setResNat_res (v : Nat) : (setResNat v s).res = BitVec.ofNat 32 v := rfl
@[simp] theorem setResNat_err (v : Nat) : (setResNat v s).err = s.err := rfl
@[simp] theorem setResNat_errCode (v : Nat) : (setResNat v s).errCode = s.errCode := rfl
@[simp] theorem setResNat_errInfo (v : Nat) : (setResNat v s).errInfo = s.errInfo := rfl
@[simp] theorem setResNat_phase (v : Nat) : (setResNat v s).phase = s.phase := rfl
@[simp] theorem setResNat_ver (v : Nat) : (setResNat v s).ver = s.ver := rfl
@[simp] theorem setResNat_size (v : Nat) : (setResNat v s).size = s.size := rfl
@[simp] theorem setResNat_cwbuf (v : Nat) : (setResNat v s).cwbuf = s.cwbuf := rfl
@[simp] theorem setResNat_g (v : Nat) : (setResNat v s).g = s.g := rfl
@[simp] theorem setResNat_ge (v : Nat) : (setResNat v s).ge = s.ge := rfl
@[simp] theorem setResNat_mat (v : Nat) : (setResNat v s).mat = s.mat := rfl
@[simp] theorem setResNat_rsv (v : Nat) : (setResNat v s).rsv = s.rsv := rfl
@[simp] theorem setResNat_dlist (v : Nat) : (setResNat v s).dlist = s.dlist := rfl
@[simp] theorem setResNat_maskId (v : Nat) : (setResNat v s).maskId = s.maskId := rfl
@[simp] theorem setResNat_bestPen (v : Nat) : (setResNat v s).bestPen = s.bestPen := rfl
@[simp] theorem setResNat_pen1 (v : Nat) : (setResNat v s).pen1 = s.pen1 := rfl
@[simp] theorem setResNat_pen2 (v : Nat) : (setResNat v s).pen2 = s.pen2 := rfl
@[simp] theorem setResNat_pen3 (v : Nat) : (setResNat v s).pen3 = s.pen3 := rfl
@[simp] theorem setResNat_pen4 (v : Nat) : (setResNat v s).pen4 = s.pen4 := rfl
@[simp] theorem setResNat_pent (v : Nat) : (setResNat v s).pent = s.pent := rfl
@[simp] theorem setResNat_cand (v : Nat) : (setResNat v s).cand = s.cand := rfl
@[simp] theorem setResNat_fmtReg (v : Nat) : (setResNat v s).fmtReg = s.fmtReg := rfl
@[simp] theorem setResNat_pending (v : Nat) : (setResNat v s).pending = s.pending := rfl

/-! `setPenalties` -/

@[simp] theorem setPenalties_res (a b c d e : Nat) : (setPenalties a b c d e s).res = s.res := rfl
@[simp] theorem setPenalties_err (a b c d e : Nat) : (setPenalties a b c d e s).err = s.err := rfl
@[simp] theorem setPenalties_errCode (a b c d e : Nat) : (setPenalties a b c d e s).errCode = s.errCode := rfl
@[simp] theorem setPenalties_errInfo (a b c d e : Nat) : (setPenalties a b c d e s).errInfo = s.errInfo := rfl
@[simp] theorem setPenalties_phase (a b c d e : Nat) : (setPenalties a b c d e s).phase = s.phase := rfl
@[simp] theorem setPenalties_ver (a b c d e : Nat) : (setPenalties a b c d e s).ver = s.ver := rfl
@[simp] theorem setPenalties_size (a b c d e : Nat) : (setPenalties a b c d e s).size = s.size := rfl
@[simp] theorem setPenalties_cwbuf (a b c d e : Nat) : (setPenalties a b c d e s).cwbuf = s.cwbuf := rfl
@[simp] theorem setPenalties_g (a b c d e : Nat) : (setPenalties a b c d e s).g = s.g := rfl
@[simp] theorem setPenalties_ge (a b c d e : Nat) : (setPenalties a b c d e s).ge = s.ge := rfl
@[simp] theorem setPenalties_mat (a b c d e : Nat) : (setPenalties a b c d e s).mat = s.mat := rfl
@[simp] theorem setPenalties_rsv (a b c d e : Nat) : (setPenalties a b c d e s).rsv = s.rsv := rfl
@[simp] theorem setPenalties_dlist (a b c d e : Nat) : (setPenalties a b c d e s).dlist = s.dlist := rfl
@[simp] theorem setPenalties_maskId (a b c d e : Nat) : (setPenalties a b c d e s).maskId = s.maskId := rfl
@[simp] theorem setPenalties_bestPen (a b c d e : Nat) : (setPenalties a b c d e s).bestPen = s.bestPen := rfl
@[simp] theorem setPenalties_pen1 (a b c d e : Nat) : (setPenalties a b c d e s).pen1 = BitVec.ofNat 32 a := rfl
@[simp] theorem setPenalties_pen2 (a b c d e : Nat) : (setPenalties a b c d e s).pen2 = BitVec.ofNat 32 b := rfl
@[simp] theorem setPenalties_pen3 (a b c d e : Nat) : (setPenalties a b c d e s).pen3 = BitVec.ofNat 32 c := rfl
@[simp] theorem setPenalties_pen4 (a b c d e : Nat) : (setPenalties a b c d e s).pen4 = BitVec.ofNat 32 d := rfl
@[simp] theorem setPenalties_pent (a b c d e : Nat) : (setPenalties a b c d e s).pent = BitVec.ofNat 32 e := rfl
@[simp] theorem setPenalties_cand (a b c d e : Nat) : (setPenalties a b c d e s).cand = s.cand := rfl
@[simp] theorem setPenalties_fmtReg (a b c d e : Nat) : (setPenalties a b c d e s).fmtReg = s.fmtReg := rfl
@[simp] theorem setPenalties_pending (a b c d e : Nat) : (setPenalties a b c d e s).pending = s.pending := rfl

/-! `latchScore` -/

@[simp] theorem latchScore_res (c : Score) : (latchScore c s).res = s.res := rfl
@[simp] theorem latchScore_err (c : Score) : (latchScore c s).err = s.err := rfl
@[simp] theorem latchScore_errCode (c : Score) : (latchScore c s).errCode = s.errCode := rfl
@[simp] theorem latchScore_errInfo (c : Score) : (latchScore c s).errInfo = s.errInfo := rfl
@[simp] theorem latchScore_phase (c : Score) : (latchScore c s).phase = s.phase := rfl
@[simp] theorem latchScore_ver (c : Score) : (latchScore c s).ver = s.ver := rfl
@[simp] theorem latchScore_size (c : Score) : (latchScore c s).size = s.size := rfl
@[simp] theorem latchScore_cwbuf (c : Score) : (latchScore c s).cwbuf = s.cwbuf := rfl
@[simp] theorem latchScore_g (c : Score) : (latchScore c s).g = s.g := rfl
@[simp] theorem latchScore_ge (c : Score) : (latchScore c s).ge = s.ge := rfl
@[simp] theorem latchScore_mat (c : Score) : (latchScore c s).mat = s.mat := rfl
@[simp] theorem latchScore_rsv (c : Score) : (latchScore c s).rsv = s.rsv := rfl
@[simp] theorem latchScore_dlist (c : Score) : (latchScore c s).dlist = s.dlist := rfl
@[simp] theorem latchScore_maskId (c : Score) : (latchScore c s).maskId = s.maskId := rfl
@[simp] theorem latchScore_bestPen (c : Score) : (latchScore c s).bestPen = s.bestPen := rfl
@[simp] theorem latchScore_pen1 (c : Score) : (latchScore c s).pen1 = BitVec.ofNat 32 c.r1 := rfl
@[simp] theorem latchScore_pen2 (c : Score) : (latchScore c s).pen2 = BitVec.ofNat 32 c.r2 := rfl
@[simp] theorem latchScore_pen3 (c : Score) : (latchScore c s).pen3 = BitVec.ofNat 32 c.r3 := rfl
@[simp] theorem latchScore_pen4 (c : Score) : (latchScore c s).pen4 = BitVec.ofNat 32 c.r4 := rfl
@[simp] theorem latchScore_pent (c : Score) : (latchScore c s).pent = BitVec.ofNat 32 c.total := rfl
@[simp] theorem latchScore_cand (c : Score) : (latchScore c s).cand = s.cand := rfl
@[simp] theorem latchScore_fmtReg (c : Score) : (latchScore c s).fmtReg = s.fmtReg := rfl
@[simp] theorem latchScore_pending (c : Score) : (latchScore c s).pending = s.pending := rfl

/-! `writeCw` -/

@[simp] theorem writeCw_res (k : Nat) (v : Byte) : (writeCw k v s).res = s.res := rfl
@[simp] theorem writeCw_err (k : Nat) (v : Byte) : (writeCw k v s).err = s.err := rfl
@[simp] theorem writeCw_errCode (k : Nat) (v : Byte) : (writeCw k v s).errCode = s.errCode := rfl
@[simp] theorem writeCw_errInfo (k : Nat) (v : Byte) : (writeCw k v s).errInfo = s.errInfo := rfl
@[simp] theorem writeCw_phase (k : Nat) (v : Byte) : (writeCw k v s).phase = s.phase := rfl
@[simp] theorem writeCw_ver (k : Nat) (v : Byte) : (writeCw k v s).ver = s.ver := rfl
@[simp] theorem writeCw_size (k : Nat) (v : Byte) : (writeCw k v s).size = s.size := rfl
@[simp] theorem writeCw_cwbuf (k : Nat) (v : Byte) : (writeCw k v s).cwbuf = s.cwbuf.setIfInBounds k v := rfl
@[simp] theorem writeCw_g (k : Nat) (v : Byte) : (writeCw k v s).g = s.g := rfl
@[simp] theorem writeCw_ge (k : Nat) (v : Byte) : (writeCw k v s).ge = s.ge := rfl
@[simp] theorem writeCw_mat (k : Nat) (v : Byte) : (writeCw k v s).mat = s.mat := rfl
@[simp] theorem writeCw_rsv (k : Nat) (v : Byte) : (writeCw k v s).rsv = s.rsv := rfl
@[simp] theorem writeCw_dlist (k : Nat) (v : Byte) : (writeCw k v s).dlist = s.dlist := rfl
@[simp] theorem writeCw_maskId (k : Nat) (v : Byte) : (writeCw k v s).maskId = s.maskId := rfl
@[simp] theorem writeCw_bestPen (k : Nat) (v : Byte) : (writeCw k v s).bestPen = s.bestPen := rfl
@[simp] theorem writeCw_pen1 (k : Nat) (v : Byte) : (writeCw k v s).pen1 = s.pen1 := rfl
@[simp] theorem writeCw_pen2 (k : Nat) (v : Byte) : (writeCw k v s).pen2 = s.pen2 := rfl
@[simp] theorem writeCw_pen3 (k : Nat) (v : Byte) : (writeCw k v s).pen3 = s.pen3 := rfl
@[simp] theorem writeCw_pen4 (k : Nat) (v : Byte) : (writeCw k v s).pen4 = s.pen4 := rfl
@[simp] theorem writeCw_pent (k : Nat) (v : Byte) : (writeCw k v s).pent = s.pent := rfl
@[simp] theorem writeCw_cand (k : Nat) (v : Byte) : (writeCw k v s).cand = s.cand := rfl
@[simp] theorem writeCw_fmtReg (k : Nat) (v : Byte) : (writeCw k v s).fmtReg = s.fmtReg := rfl
@[simp] theorem writeCw_pending (k : Nat) (v : Byte) : (writeCw k v s).pending = s.pending := rfl

/-! `loadG` -/

@[simp] theorem loadG_res (e : Nat) (p : List Byte) : (loadG e p s).res = s.res := rfl
@[simp] theorem loadG_err (e : Nat) (p : List Byte) : (loadG e p s).err = s.err := rfl
@[simp] theorem loadG_errCode (e : Nat) (p : List Byte) : (loadG e p s).errCode = s.errCode := rfl
@[simp] theorem loadG_errInfo (e : Nat) (p : List Byte) : (loadG e p s).errInfo = s.errInfo := rfl
@[simp] theorem loadG_phase (e : Nat) (p : List Byte) : (loadG e p s).phase = s.phase := rfl
@[simp] theorem loadG_ver (e : Nat) (p : List Byte) : (loadG e p s).ver = s.ver := rfl
@[simp] theorem loadG_size (e : Nat) (p : List Byte) : (loadG e p s).size = s.size := rfl
@[simp] theorem loadG_cwbuf (e : Nat) (p : List Byte) : (loadG e p s).cwbuf = s.cwbuf := rfl
@[simp] theorem loadG_g (e : Nat) (p : List Byte) : (loadG e p s).g = padVector 21 p 0 := rfl
@[simp] theorem loadG_ge (e : Nat) (p : List Byte) : (loadG e p s).ge = BitVec.ofNat 5 e := rfl
@[simp] theorem loadG_mat (e : Nat) (p : List Byte) : (loadG e p s).mat = s.mat := rfl
@[simp] theorem loadG_rsv (e : Nat) (p : List Byte) : (loadG e p s).rsv = s.rsv := rfl
@[simp] theorem loadG_dlist (e : Nat) (p : List Byte) : (loadG e p s).dlist = s.dlist := rfl
@[simp] theorem loadG_maskId (e : Nat) (p : List Byte) : (loadG e p s).maskId = s.maskId := rfl
@[simp] theorem loadG_bestPen (e : Nat) (p : List Byte) : (loadG e p s).bestPen = s.bestPen := rfl
@[simp] theorem loadG_pen1 (e : Nat) (p : List Byte) : (loadG e p s).pen1 = s.pen1 := rfl
@[simp] theorem loadG_pen2 (e : Nat) (p : List Byte) : (loadG e p s).pen2 = s.pen2 := rfl
@[simp] theorem loadG_pen3 (e : Nat) (p : List Byte) : (loadG e p s).pen3 = s.pen3 := rfl
@[simp] theorem loadG_pen4 (e : Nat) (p : List Byte) : (loadG e p s).pen4 = s.pen4 := rfl
@[simp] theorem loadG_pent (e : Nat) (p : List Byte) : (loadG e p s).pent = s.pent := rfl
@[simp] theorem loadG_cand (e : Nat) (p : List Byte) : (loadG e p s).cand = s.cand := rfl
@[simp] theorem loadG_fmtReg (e : Nat) (p : List Byte) : (loadG e p s).fmtReg = s.fmtReg := rfl
@[simp] theorem loadG_pending (e : Nat) (p : List Byte) : (loadG e p s).pending = s.pending := rfl

/-! `enqueueFirst` -/

@[simp] theorem enqueueFirst_res (w : Word) : (enqueueFirst w s).res = s.res := rfl
@[simp] theorem enqueueFirst_err (w : Word) : (enqueueFirst w s).err = s.err := rfl
@[simp] theorem enqueueFirst_errCode (w : Word) : (enqueueFirst w s).errCode = s.errCode := rfl
@[simp] theorem enqueueFirst_errInfo (w : Word) : (enqueueFirst w s).errInfo = s.errInfo := rfl
@[simp] theorem enqueueFirst_phase (w : Word) : (enqueueFirst w s).phase = s.phase := rfl
@[simp] theorem enqueueFirst_ver (w : Word) : (enqueueFirst w s).ver = s.ver := rfl
@[simp] theorem enqueueFirst_size (w : Word) : (enqueueFirst w s).size = s.size := rfl
@[simp] theorem enqueueFirst_cwbuf (w : Word) : (enqueueFirst w s).cwbuf = s.cwbuf := rfl
@[simp] theorem enqueueFirst_g (w : Word) : (enqueueFirst w s).g = s.g := rfl
@[simp] theorem enqueueFirst_ge (w : Word) : (enqueueFirst w s).ge = s.ge := rfl
@[simp] theorem enqueueFirst_mat (w : Word) : (enqueueFirst w s).mat = s.mat := rfl
@[simp] theorem enqueueFirst_rsv (w : Word) : (enqueueFirst w s).rsv = s.rsv := rfl
@[simp] theorem enqueueFirst_dlist (w : Word) : (enqueueFirst w s).dlist = s.dlist := rfl
@[simp] theorem enqueueFirst_maskId (w : Word) : (enqueueFirst w s).maskId = s.maskId := rfl
@[simp] theorem enqueueFirst_bestPen (w : Word) : (enqueueFirst w s).bestPen = s.bestPen := rfl
@[simp] theorem enqueueFirst_pen1 (w : Word) : (enqueueFirst w s).pen1 = s.pen1 := rfl
@[simp] theorem enqueueFirst_pen2 (w : Word) : (enqueueFirst w s).pen2 = s.pen2 := rfl
@[simp] theorem enqueueFirst_pen3 (w : Word) : (enqueueFirst w s).pen3 = s.pen3 := rfl
@[simp] theorem enqueueFirst_pen4 (w : Word) : (enqueueFirst w s).pen4 = s.pen4 := rfl
@[simp] theorem enqueueFirst_pent (w : Word) : (enqueueFirst w s).pent = s.pent := rfl
@[simp] theorem enqueueFirst_cand (w : Word) : (enqueueFirst w s).cand = s.cand := rfl
@[simp] theorem enqueueFirst_fmtReg (w : Word) : (enqueueFirst w s).fmtReg = s.fmtReg := rfl
@[simp] theorem enqueueFirst_pending (w : Word) : (enqueueFirst w s).pending = w :: s.pending := rfl

/-! `writeCwRun` changes CWBUF only (R129). -/

theorem writeCwRun_eq (bs : List Byte) : ∀ (k : Nat) (s : State),
    writeCwRun k bs s = { s with cwbuf := (writeCwRun k bs s).cwbuf } := by
  induction bs with
  | nil => intro k s; rfl
  | cons b bs ih =>
    intro k s
    rw [writeCwRun, ih]
    rfl

@[simp] theorem writeCwRun_res (k : Nat) (bs : List Byte) : (writeCwRun k bs s).res = s.res := by
  rw [writeCwRun_eq]
@[simp] theorem writeCwRun_err (k : Nat) (bs : List Byte) : (writeCwRun k bs s).err = s.err := by
  rw [writeCwRun_eq]
@[simp] theorem writeCwRun_errCode (k : Nat) (bs : List Byte) : (writeCwRun k bs s).errCode = s.errCode := by
  rw [writeCwRun_eq]
@[simp] theorem writeCwRun_errInfo (k : Nat) (bs : List Byte) : (writeCwRun k bs s).errInfo = s.errInfo := by
  rw [writeCwRun_eq]
@[simp] theorem writeCwRun_phase (k : Nat) (bs : List Byte) : (writeCwRun k bs s).phase = s.phase := by
  rw [writeCwRun_eq]
@[simp] theorem writeCwRun_ver (k : Nat) (bs : List Byte) : (writeCwRun k bs s).ver = s.ver := by
  rw [writeCwRun_eq]
@[simp] theorem writeCwRun_size (k : Nat) (bs : List Byte) : (writeCwRun k bs s).size = s.size := by
  rw [writeCwRun_eq]
@[simp] theorem writeCwRun_g (k : Nat) (bs : List Byte) : (writeCwRun k bs s).g = s.g := by
  rw [writeCwRun_eq]
@[simp] theorem writeCwRun_ge (k : Nat) (bs : List Byte) : (writeCwRun k bs s).ge = s.ge := by
  rw [writeCwRun_eq]
@[simp] theorem writeCwRun_mat (k : Nat) (bs : List Byte) : (writeCwRun k bs s).mat = s.mat := by
  rw [writeCwRun_eq]
@[simp] theorem writeCwRun_rsv (k : Nat) (bs : List Byte) : (writeCwRun k bs s).rsv = s.rsv := by
  rw [writeCwRun_eq]
@[simp] theorem writeCwRun_dlist (k : Nat) (bs : List Byte) : (writeCwRun k bs s).dlist = s.dlist := by
  rw [writeCwRun_eq]
@[simp] theorem writeCwRun_maskId (k : Nat) (bs : List Byte) : (writeCwRun k bs s).maskId = s.maskId := by
  rw [writeCwRun_eq]
@[simp] theorem writeCwRun_bestPen (k : Nat) (bs : List Byte) : (writeCwRun k bs s).bestPen = s.bestPen := by
  rw [writeCwRun_eq]
@[simp] theorem writeCwRun_pen1 (k : Nat) (bs : List Byte) : (writeCwRun k bs s).pen1 = s.pen1 := by
  rw [writeCwRun_eq]
@[simp] theorem writeCwRun_pen2 (k : Nat) (bs : List Byte) : (writeCwRun k bs s).pen2 = s.pen2 := by
  rw [writeCwRun_eq]
@[simp] theorem writeCwRun_pen3 (k : Nat) (bs : List Byte) : (writeCwRun k bs s).pen3 = s.pen3 := by
  rw [writeCwRun_eq]
@[simp] theorem writeCwRun_pen4 (k : Nat) (bs : List Byte) : (writeCwRun k bs s).pen4 = s.pen4 := by
  rw [writeCwRun_eq]
@[simp] theorem writeCwRun_pent (k : Nat) (bs : List Byte) : (writeCwRun k bs s).pent = s.pent := by
  rw [writeCwRun_eq]
@[simp] theorem writeCwRun_cand (k : Nat) (bs : List Byte) : (writeCwRun k bs s).cand = s.cand := by
  rw [writeCwRun_eq]
@[simp] theorem writeCwRun_fmtReg (k : Nat) (bs : List Byte) : (writeCwRun k bs s).fmtReg = s.fmtReg := by
  rw [writeCwRun_eq]
@[simp] theorem writeCwRun_pending (k : Nat) (bs : List Byte) : (writeCwRun k bs s).pending = s.pending := by
  rw [writeCwRun_eq]

/-- The entries of a padded vector (R123, R178). -/
@[simp] theorem padVector_get {α : Type} (n : Nat) (xs : List α) (d : α) (j : Nat) (h : j < n) :
    (padVector n xs d)[j] = xs.getD j d := by
  simp [padVector]

@[simp] theorem padVector_toList {α : Type} (n : Nat) (xs : List α) (d : α) :
    (padVector n xs d).toList = (List.range n).map fun j => xs.getD j d := rfl

/-! What the views read. -/

@[simp] theorem status_setRes (v : Word) : status (setRes v s) = status s := rfl

@[simp] theorem csr_setRes (n : Nat) (v : Word) : csr n (setRes v s) = csr n s := rfl

end Sys2Proof.Machine
end

