-- ==== Sys2Proof/Laws/Codewords.lean ====
section
/-! SUPPORT. The codeword buffer and the lists the Reed-Solomon engine works on: reads after writes, lengths
(R124, R129). -/

namespace Sys2Proof.Machine

variable (s : State)

/-- CWBUF after one write (R125). -/
theorem writeCw_get (k : Nat) (v : Byte) (j : Nat) (h : j < 100) :
    (writeCw k v s).cwbuf[j] = if k = j then v else s.cwbuf[j] := by
  simp [writeCw, Vector.getElem_setIfInBounds]

/-- CWBUF after a run of writes from `k` on (R129). -/
theorem writeCwRun_get (bs : List Byte) : ∀ (k : Nat) (s : State) (j : Nat) (h : j < 100),
    (writeCwRun k bs s).cwbuf[j] =
      if k ≤ j ∧ j < k + bs.length then bs.getD (j - k) 0 else s.cwbuf[j] := by
  induction bs with
  | nil => intro k s j h; simp only [writeCwRun, List.length_nil]; rw [if_neg (by omega)]
  | cons b bs ih =>
    intro k s j h
    rw [writeCwRun, ih, writeCw_get]
    by_cases h1 : k = j
    · subst h1
      simp
    · by_cases h2 : k + 1 ≤ j ∧ j < k + 1 + bs.length
      · have : j - k = (j - (k + 1)) + 1 := by omega
        rw [if_pos h2, if_pos (by simp only [List.length_cons]; omega), this]
        simp
      · rw [if_neg h2, if_neg h1, if_neg (by simp only [List.length_cons]; omega)]

theorem xorFront_length (w : List Byte) : ∀ a : List Byte, (xorFront w a).length = w.length := by
  induction w with
  | nil => intro a; cases a <;> rfl
  | cons x xs ih =>
    intro a
    cases a with
    | nil => rfl
    | cons b bs => simp [xorFront, ih]

theorem divide_length (g : List Byte) (k : Nat) :
    ∀ work : List Byte, (divide g k work).length = work.length - k := by
  induction k with
  | zero => intro work; simp [divide]
  | succ k ih =>
    intro work
    cases work with
    | nil => simp [divide]
    | cons c rest =>
      rw [divide]
      split <;> simp [ih, xorFront_length]

/-- The remainder has e bytes (R121). -/
theorem rsRem_length (data : List Byte) (e : Nat) : (rsRem data e).length = e := by
  simp [rsRem, divide_length]

theorem genPoly_length (e : Nat) : (genPoly e).length = e + 1 := by
  induction e with
  | zero => rfl
  | succ e ih => simp [genPoly, timesRoot, ih]

end Sys2Proof.Machine
end

