-- ==== Sys2Proof/Laws/Evaluation.lean ====
section
/-! SUPPORT. How to run the grids in the kernel. A chain of `Grid.set` stays a chain of suspended updates there;
`settle…` walks a value constructor by constructor before the continuation sees it. Each of them is the
identity, so what is computed through it is the model's own value. -/

namespace Sys2Proof.Machine

/-- `k m`, after `m` has been brought to a literal. -/
def settleModule {β : Type} : QrModule → (QrModule → β) → β
  | .unset, k => k .unset
  | .light, k => k .light
  | .dark, k => k .dark

/-- `k b`, after `b` has been brought to a literal. -/
def settleBool {β : Type} : Bool → (Bool → β) → β
  | true, k => k true
  | false, k => k false

/-- `k xs`, after every entry has been settled by `el`. -/
def settleList {α β : Type} (el : α → (α → β) → β) : List α → (List α → β) → β
  | [], k => k []
  | x :: xs, k => el x fun x' => settleList el xs fun xs' => k (x' :: xs')

theorem settleModule_eq {β : Type} (m : QrModule) (k : QrModule → β) : settleModule m k = k m := by
  cases m <;> rfl

theorem settleBool_eq {β : Type} (b : Bool) (k : Bool → β) : settleBool b k = k b := by
  cases b <;> rfl

theorem settleList_eq {α β : Type} {el : α → (α → β) → β} (hel : ∀ x k, el x k = k x) (xs : List α) :
    ∀ k : List α → β, settleList el xs k = k xs := by
  induction xs with
  | nil => intro k; rfl
  | cons x xs ih => intro k; rw [settleList, hel, ih]

/-- `k c`, after both grids have been brought to literals. -/
def settleCanvas {β : Type} (c : Canvas) (k : Canvas → β) : β :=
  settleList (settleList settleModule) c.mat fun mat =>
    settleList (settleList settleBool) c.rsv fun rsv => k ⟨mat, rsv⟩

theorem settleCanvas_eq {β : Type} (c : Canvas) (k : Canvas → β) : settleCanvas c k = k c := by
  rw [settleCanvas, settleList_eq (settleList_eq settleModule_eq),
    settleList_eq (settleList_eq settleBool_eq)]

/-- `k m`, after the grid has been brought to a literal. -/
def settleGrid {β : Type} (m : Grid QrModule) (k : Grid QrModule → β) : β :=
  settleList (settleList settleModule) m k

theorem settleGrid_eq {β : Type} (m : Grid QrModule) (k : Grid QrModule → β) : settleGrid m k = k m :=
  settleList_eq (settleList_eq settleModule_eq) m k

end Sys2Proof.Machine
end

