-- ==== Sys2Proof/Laws/Grid.lean ====
section
/-! SUPPORT. The grids: a read after a write, and that every operation keeps the canonical form (R30, R32). -/

namespace Sys2Proof.Machine

variable {α : Type} {n : Nat}

/-- The canonical form as a proposition: n rows, each of n cells. -/
theorem Grid.wf_iff (m : Grid α) :
    m.wf n = true ↔ m.length = n ∧ ∀ row ∈ m, row.length = n := by
  simp [Grid.wf]

theorem Grid.wf_fill (n : Nat) (v : α) : (Grid.fill n v).wf n = true := by
  rw [Grid.wf_iff]
  refine ⟨by simp [Grid.fill], fun row h => ?_⟩
  rw [(List.mem_replicate.mp h).2, List.length_replicate]

/-- A write changes the one cell it names, if the grid has it. -/
theorem Grid.get?_set (m : Grid α) (x y x' y' : Nat) (v : α) :
    (m.set x y v).get? x' y' =
      if x = x' ∧ y = y' then (m.get? x' y').map fun _ => v else m.get? x' y' := by
  simp only [Grid.get?, Grid.set, List.getElem?_modify]
  cases hr : m[y']? with
  | none => simp
  | some row =>
    by_cases hy : y = y'
    · by_cases hx : x = x'
      · subst hx
        rcases Nat.lt_or_ge x row.length with h | h
        · simp [hy, h]
        · simp [hy, h]
      · simp [hy, hx]
    · simp [hy]

theorem Grid.get?_set_same {m : Grid α} {x y : Nat} {u : α} (v : α) (h : m.get? x y = some u) :
    (m.set x y v).get? x y = some v := by
  simp [Grid.get?_set, h]

theorem Grid.get?_set_other {m : Grid α} {x y x' y' : Nat} (v : α) (h : (x, y) ≠ (x', y')) :
    (m.set x y v).get? x' y' = m.get? x' y' := by
  rw [Grid.get?_set, if_neg]
  simpa [Prod.ext_iff] using h

theorem Grid.wf_set {m : Grid α} (x y : Nat) (v : α) (h : m.wf n = true) :
    (m.set x y v).wf n = true := by
  rw [Grid.wf_iff] at h ⊢
  refine ⟨by simpa [Grid.set] using h.1, fun row hrow => ?_⟩
  obtain ⟨k, hk⟩ := List.mem_iff_getElem?.mp hrow
  rw [Grid.set, List.getElem?_modify] at hk
  cases hm : m[k]? with
  | none => simp [hm] at hk
  | some r =>
    have hr : r.length = n := h.2 r (List.mem_of_getElem? hm)
    rw [hm] at hk
    by_cases hy : y = k <;> simp [hy] at hk <;> simp [← hk, hr]

/-- A grid in canonical form has exactly the cells with both coordinates below n. -/
theorem Grid.get?_isSome {m : Grid α} (h : m.wf n = true) (x y : Nat) :
    (m.get? x y).isSome = true ↔ x < n ∧ y < n := by
  rw [Grid.wf_iff] at h
  unfold Grid.get?
  cases hr : m[y]? with
  | none =>
    have : m.length ≤ y := List.getElem?_eq_none_iff.mp hr
    simp
    omega
  | some row =>
    have hy : y < m.length := (List.getElem?_eq_some_iff.mp hr).1
    have hrow : row.length = n := h.2 row (List.mem_of_getElem? hr)
    simp [hrow]
    omega

/-- A fold of writes keeps the canonical form. -/
theorem Grid.wf_foldl {β : Type} (f : Grid α → β → Grid α)
    (hf : ∀ m b, m.wf n = true → (f m b).wf n = true) (bs : List β) :
    ∀ m : Grid α, m.wf n = true → (bs.foldl f m).wf n = true := by
  induction bs with
  | nil => intro m h; exact h
  | cons b bs ih => intro m h; exact ih _ (hf _ _ h)

/-- The placer's and the candidate's writes (R160, R171). -/
theorem writeEntries_wf (es : List Entry) {m : Grid QrModule} (h : m.wf n = true) :
    (writeEntries es m).wf n = true :=
  Grid.wf_foldl _ (fun _ _ h => Grid.wf_set _ _ _ h) es m h

theorem candidate_wf (p : Nat) {s : State} (h : s.mat.wf n = true) : (candidate p s).wf n = true :=
  writeEntries_wf _ h

/-- FMTWRITE (R191). -/
theorem fmtWrite_wf (k : Nat) (w : BitVec 15) {m : Grid QrModule} (h : m.wf n = true) :
    (fmtWrite k w m).wf n = true :=
  Grid.wf_foldl _ (fun _ _ h => Grid.wf_set _ _ _ (Grid.wf_set _ _ _ h)) _ m h

/-- A cell that no entry names keeps its value. -/
theorem writeEntries_other (es : List Entry) {x y : Nat} (h : ∀ e ∈ es, (e.x, e.y) ≠ (x, y)) :
    ∀ m : Grid QrModule, (writeEntries es m).get? x y = m.get? x y := by
  induction es with
  | nil => intro m; rfl
  | cons e es ih =>
    intro m
    have he := h e (by simp)
    rw [writeEntries, List.foldl_cons]
    exact (ih (fun e' h' => h e' (by simp [h'])) _).trans (Grid.get?_set_other _ he)

end Sys2Proof.Machine
end

