-- ==== Sys2Proof/Laws/Ops.lean ====
section
/-! SUPPORT. What the shared operations can do, said once: the order of checks (R230), rejecting a word, and
taking the next command word. -/

namespace Sys2Proof.Machine

variable {s t : State}

/-- Everything `perform` can do (R230 steps (2) to (5)): it always answers a next state, which is one of
four. -/
theorem perform_cases {i : Instr} {admitted : Bool} {operand : Option ErrCode}
    {effect : State → State} (h : perform i admitted operand effect s = .next t) :
    (s.err = true ∧ t = s) ∨
    (s.err = false ∧ admitted = false ∧ t = raise .badPhase (encode i) s) ∨
    (∃ c, s.err = false ∧ admitted = true ∧ operand = some c ∧ t = raise c (encode i) s) ∨
    (s.err = false ∧ admitted = true ∧ operand = none ∧ t = effect s) := by
  unfold perform at h
  cases he : s.err <;> cases admitted <;> cases operand <;> simp_all

/-- `perform` never stops. -/
theorem perform_answers (i : Instr) (admitted : Bool) (operand : Option ErrCode)
    (effect : State → State) (s : State) : ∃ t, perform i admitted operand effect s = .next t := by
  unfold perform
  split
  · exact ⟨_, rfl⟩
  · split
    · exact ⟨_, rfl⟩
    · cases operand <;> exact ⟨_, rfl⟩

/-- Ignored while ERR = 1 (R232). -/
theorem perform_ignored {i : Instr} {admitted : Bool} {operand : Option ErrCode}
    {effect : State → State} (h : s.err = true) :
    perform i admitted operand effect s = .next s := by
  simp [perform, h]

/-- The phase is checked before the operand (R230 step (3)). -/
theorem perform_badPhase {i : Instr} {operand : Option ErrCode} {effect : State → State}
    (h : s.err = false) :
    perform i false operand effect s = .next (raise .badPhase (encode i) s) := by
  simp [perform, h]

/-- R230 step (4). -/
theorem perform_operand {i : Instr} {c : ErrCode} {effect : State → State} (h : s.err = false) :
    perform i true (some c) effect s = .next (raise c (encode i) s) := by
  simp [perform, h]

/-- R230 step (5). -/
theorem perform_runs {i : Instr} {effect : State → State} (h : s.err = false) :
    perform i true none effect s = .next (effect s) := by
  simp [perform, h]

/-- An operand check answers its own code or none (R233). -/
theorem faultIf_eq_some {b : Bool} {c d : ErrCode} : faultIf b c = some d ↔ b = true ∧ d = c := by
  cases b <;> simp [faultIf, eq_comm]

theorem faultIf_eq_none {b : Bool} {c : ErrCode} : faultIf b c = none ↔ b = false := by
  cases b <;> simp [faultIf]

theorem rejectWord_err (w : Word) (h : s.err = true) : rejectWord w s = s := by simp [rejectWord, h]

theorem rejectWord_ok (w : Word) (h : s.err = false) : rejectWord w s = raise .illegalCommand w s := by
  simp [rejectWord, h]

/-- The stream in order: the first pending word is taken. -/
theorem takeWord_cons {w : Word} {ws : List Word} (h : s.pending = w :: ws) :
    takeWord s = some (w, { s with pending := ws }) := by
  simp [takeWord, h]

theorem takeWord_nil (h : s.pending = []) : takeWord s = none := by simp [takeWord, h]

/-- A step is the issue of one word, or nothing. -/
theorem step_cases (h : step s = .next t) :
    (s.pending = [] ∧ t = s) ∨
    ∃ w ws, s.pending = w :: ws ∧ issue w { s with pending := ws } = .next t := by
  unfold step at h
  cases hp : s.pending with
  | nil =>
    rw [takeWord_nil hp] at h
    exact .inl ⟨rfl, by simpa using h.symm⟩
  | cons w ws =>
    rw [takeWord_cons hp] at h
    exact .inr ⟨w, ws, rfl, h⟩

/-- The very next step issues the word that `withFetchWord` places. -/
theorem step_withFetchWord (s : State) (nbits w : Nat) :
    step (s.withFetchWord nbits w) = issue (BitVec.ofNat 32 (w % 2 ^ nbits)) s := rfl

end Sys2Proof.Machine
end

