-- ==== Sys2Proof/Laws/PerInstr.lean ====
section
/-! SUPPORT. Statements made per command. Family RoundTrip: a well-formed command's word decodes back to it
(R83, R87). -/

namespace Sys2Proof.Laws.RoundTrip

/-- No bit of this command's encoding is dropped. -/
def Statement (i : Instr) : Prop := i.wellFormed = true → decode (encode i) = .ok i

/-- The fields of an assembled word are the numbers it was assembled from (R80, R87). -/
theorem fields_of_word {op c b a : Nat} (ho : op < 256) (hc : c < 256) (hb : b < 256) (ha : a < 256) :
    fieldOp (assembleWord op c b a) = op ∧ fieldC (assembleWord op c b a) = c ∧
    fieldB (assembleWord op c b a) = b ∧ fieldA (assembleWord op c b a) = a ∧
    fieldImm (assembleWord op c b a) = 256 * b + a := by
  have h : (assembleWord op c b a).toNat = op * 2 ^ 24 + c * 2 ^ 16 + b * 2 ^ 8 + a := by
    rw [assembleWord, BitVec.toNat_ofNat, Nat.mod_eq_of_lt (by omega)]
  unfold fieldOp fieldC fieldB fieldA fieldImm
  rw [h]
  omega

/-- Decoding an assembled word looks only at its four fields. -/
theorem decode_word {op c b a : Nat} (ho : op < 256) (hc : c < 256) (hb : b < 256) (ha : a < 256)
    {i : Instr} (h : ∀ w : Word, fieldOp w = op → fieldC w = c → fieldB w = b → fieldA w = a →
      fieldImm w = 256 * b + a → decode w = .ok i) : decode (assembleWord op c b a) = .ok i :=
  have f := fields_of_word ho hc hb ha
  h _ f.1 f.2.1 f.2.2.1 f.2.2.2.1 f.2.2.2.2

theorem nop : Statement .nop := fun _ => by decide

theorem reset : Statement .reset := fun _ => by decide

theorem clrErr : Statement .clrErr := fun _ => by decide

theorem csrRd (n : Nat) : Statement (.csrRd n) := fun h => by
  have hn : n < 256 := by simpa [Instr.wellFormed] using h
  refine decode_word (by omega) (by omega) (by omega) hn fun w ho hc hb ha hi => ?_
  simp [decode, requireZero, formatA, ho, hc, hb, ha]

theorem gfExp (k : Nat) : Statement (.gfExp k) := fun h => by
  have hk : k < 65536 := by simpa [Instr.wellFormed] using h
  refine decode_word (by omega) (by omega) (by omega) (by omega) fun w ho hc hb ha hi => ?_
  have : 256 * (k / 256) + k % 256 = k := by omega
  simp [decode, requireZero, formatAB, ho, hc, hi, this]

theorem gfLog (a : Byte) : Statement (.gfLog a) := fun _ => by
  refine decode_word (by omega) (by omega) (by omega) a.isLt fun w ho hc hb ha hi => ?_
  simp [decode, requireZero, formatA, ho, hc, hb, ha]

theorem gfMul (a b : Byte) : Statement (.gfMul a b) := fun _ => by
  refine decode_word (by omega) (by omega) b.isLt a.isLt fun w ho hc hb ha hi => ?_
  simp [decode, requireZero, formatAB, ho, hc, hb, ha]

theorem cwWr (idx : Nat) (val : Byte) : Statement (.cwWr idx val) := fun h => by
  have hi : idx < 256 := by simpa [Instr.wellFormed] using h
  refine decode_word (by omega) (by omega) val.isLt hi fun w ho hc hb ha hi => ?_
  simp [decode, requireZero, formatAB, ho, hc, hb, ha]

theorem cwRd (idx : Nat) : Statement (.cwRd idx) := fun h => by
  have hn : idx < 256 := by simpa [Instr.wellFormed] using h
  refine decode_word (by omega) (by omega) (by omega) hn fun w ho hc hb ha hi => ?_
  simp [decode, requireZero, formatA, ho, hc, hb, ha]

theorem rsGen (e : Nat) : Statement (.rsGen e) := fun h => by
  have hn : e < 256 := by simpa [Instr.wellFormed] using h
  refine decode_word (by omega) (by omega) (by omega) hn fun w ho hc hb ha hi => ?_
  simp [decode, requireZero, formatA, ho, hc, hb, ha]

theorem gRd (j : Nat) : Statement (.gRd j) := fun h => by
  have hn : j < 256 := by simpa [Instr.wellFormed] using h
  refine decode_word (by omega) (by omega) (by omega) hn fun w ho hc hb ha hi => ?_
  simp [decode, requireZero, formatA, ho, hc, hb, ha]

theorem rsEnc (k e : Nat) : Statement (.rsEnc k e) := fun h => by
  have hn : k < 256 ∧ e < 256 := by simpa [Instr.wellFormed] using h
  refine decode_word (by omega) (by omega) hn.2 hn.1 fun w ho hc hb ha hi => ?_
  simp [decode, requireZero, formatAB, ho, hc, hb, ha]

theorem mxBuild (v : Nat) : Statement (.mxBuild v) := fun h => by
  have hn : v < 256 := by simpa [Instr.wellFormed] using h
  refine decode_word (by omega) (by omega) (by omega) hn fun w ho hc hb ha hi => ?_
  simp [decode, requireZero, formatA, ho, hc, hb, ha]

theorem modRd (x y : Nat) : Statement (.modRd x y) := fun h => by
  have hn : x < 256 ∧ y < 256 := by simpa [Instr.wellFormed] using h
  refine decode_word (by omega) (by omega) hn.2 hn.1 fun w ho hc hb ha hi => ?_
  simp [decode, requireZero, formatAB, ho, hc, hb, ha]

theorem mxPlace (m : Nat) : Statement (.mxPlace m) := fun h => by
  have hn : m < 256 := by simpa [Instr.wellFormed] using h
  refine decode_word (by omega) (by omega) (by omega) hn fun w ho hc hb ha hi => ?_
  simp [decode, requireZero, formatA, ho, hc, hb, ha]

theorem dlRd (k : Nat) : Statement (.dlRd k) := fun h => by
  have hk : k < 65536 := by simpa [Instr.wellFormed] using h
  refine decode_word (by omega) (by omega) (by omega) (by omega) fun w ho hc hb ha hi => ?_
  have : 256 * (k / 256) + k % 256 = k := by omega
  simp [decode, requireZero, formatAB, ho, hc, hi, this]

theorem mkPred (p x y : Nat) : Statement (.mkPred p x y) := fun h => by
  have hn : (p < 256 ∧ x < 256) ∧ y < 256 := by simpa [Instr.wellFormed] using h
  refine decode_word (by omega) hn.1.1 hn.2 hn.1.2 fun w ho hc hb ha hi => ?_
  simp [decode, ho, hc, hb, ha]

theorem mkScore (p : Nat) : Statement (.mkScore p) := fun h => by
  have hn : p < 256 := by simpa [Instr.wellFormed] using h
  refine decode_word (by omega) (by omega) (by omega) hn fun w ho hc hb ha hi => ?_
  simp [decode, requireZero, formatA, ho, hc, hb, ha]

theorem mkSel : Statement .mkSel := fun _ => by decide

theorem fmtEnc (d : Nat) : Statement (.fmtEnc d) := fun h => by
  have hn : d < 256 := by simpa [Instr.wellFormed] using h
  refine decode_word (by omega) (by omega) (by omega) hn fun w ho hc hb ha hi => ?_
  simp [decode, requireZero, formatA, ho, hc, hb, ha]

theorem fmtPut (lvl : Nat) : Statement (.fmtPut lvl) := fun h => by
  have hn : lvl < 256 := by simpa [Instr.wellFormed] using h
  refine decode_word (by omega) (by omega) (by omega) hn fun w ho hc hb ha hi => ?_
  simp [decode, requireZero, formatA, ho, hc, hb, ha]

end Sys2Proof.Laws.RoundTrip
end

