-- ==== Sys2Proof/Tests/Slice0.lean ====
section
/-! SUPPORT. The model's own tests. Expected results are the spec's: the vectors of `95_test_vectors.md` (cited as
95 and the section), the examples of the rules, or a calculation by hand from a rule, said so. A test that
also shows a state and operands meeting a statement's hypotheses names the statement. -/

open Sys2Proof Sys2Proof.Machine

namespace Sys2Proof.Tests

-- One kernel check at a time: run side by side, these tests need more threads than the memory limit allows.
set_option Elab.async false

/-! Helpers -/

/-- The state an outcome answers; reset where it answers none. -/
def nextOf (o : Host.Outcome State Fault Refusal) : State :=
  match o with
  | .next s => s
  | .fault _ => State.reset
  | .refused _ => State.reset

/-- The state after issuing one word at reset. -/
def after (w : Word) : State := nextOf (issue w State.reset)

/-- The error state that GF.LOG 0 leaves at reset. -/
def errState : State := raise .logZero 0x11000000 State.reset

/-- A version 1 state in the given phase: all data modules Light, DLIST the free cells with value 0. -/
def drawnState (p : Phase) : State :=
  settleCanvas (functionPatterns 1) fun c =>
    { State.reset with
      ver := 1
      size := 21
      mat := c.mat.map fun row => row.map fun m => if m = .unset then .light else m
      rsv := c.rsv
      dlist := (freeCells 21 c.rsv).map fun q => ⟨q.1, q.2, false⟩
      phase := p }

/-- The same in DONE, with the format word of level L and mask 0 written. -/
def doneState : State :=
  let s := drawnState .done
  { s with fmtReg := bch15 8, mat := fmtWrite 21 (bch15 8) s.mat }

/-- A 5 x 5 matrix of Light in PLACED with the one DLIST entry (1, 1, 0): a state for hand calculation, which
no run reaches. -/
def tinyState : State :=
  { State.reset with phase := .placed, size := 5, mat := Grid.fill 5 .light, dlist := [⟨1, 1, false⟩] }

/-- The five invariants that the matrix phases share. -/
def matrixInvariants (s : State) : Bool :=
  decide (GeometryInv s) && decide (ModuleInv s) && decide (FunctionInv s) && decide (ScorerInv s) &&
    decide (FormatInv s)

/-- The module values of a line written 1 Dark, 0 Light (95, 7). -/
def line (cells : List Nat) : List QrModule := cells.map fun c => if c = 1 then .dark else .light

/-! WellFormed: an ill-formed term for each check, refused (R82) -/

theorem test_illformed_csrRd : (Instr.csrRd 256).wellFormed = false := by decide
theorem test_illformed_gfExp : (Instr.gfExp 65536).wellFormed = false := by decide
theorem test_illformed_cwWr : (Instr.cwWr 256 0).wellFormed = false := by decide
theorem test_illformed_cwRd : (Instr.cwRd 256).wellFormed = false := by decide
theorem test_illformed_rsGen : (Instr.rsGen 256).wellFormed = false := by decide
theorem test_illformed_gRd : (Instr.gRd 256).wellFormed = false := by decide
theorem test_illformed_rsEnc_k : (Instr.rsEnc 256 1).wellFormed = false := by decide
theorem test_illformed_rsEnc_e : (Instr.rsEnc 1 256).wellFormed = false := by decide
theorem test_illformed_mxBuild : (Instr.mxBuild 256).wellFormed = false := by decide
theorem test_illformed_modRd_x : (Instr.modRd 256 0).wellFormed = false := by decide
theorem test_illformed_modRd_y : (Instr.modRd 0 256).wellFormed = false := by decide
theorem test_illformed_mxPlace : (Instr.mxPlace 256).wellFormed = false := by decide
theorem test_illformed_dlRd : (Instr.dlRd 65536).wellFormed = false := by decide
theorem test_illformed_mkPred_p : (Instr.mkPred 256 0 0).wellFormed = false := by decide
theorem test_illformed_mkPred_x : (Instr.mkPred 0 256 0).wellFormed = false := by decide
theorem test_illformed_mkPred_y : (Instr.mkPred 0 0 256).wellFormed = false := by decide
theorem test_illformed_mkScore : (Instr.mkScore 256).wellFormed = false := by decide
theorem test_illformed_fmtEnc : (Instr.fmtEnc 256).wellFormed = false := by decide
theorem test_illformed_fmtPut : (Instr.fmtPut 256).wellFormed = false := by decide
/-- An operand outside its legal range that fits its field is well formed (R82). -/
theorem test_wellformed_illegal_operand : (Instr.cwRd 255).wellFormed = true := by decide

/-! Decoding: for every constructor a word written out field by field, OP ++ C ++ B ++ A (R80, R83) -/

theorem test_decode_nop :
    decode (0b00000000#8 ++ 0b00000000#8 ++ 0b00000000#8 ++ 0b00000000#8) = .ok .nop := by decide
theorem test_decode_reset :
    decode (0b00000001#8 ++ 0b00000000#8 ++ 0b00000000#8 ++ 0b00000000#8) = .ok .reset := by decide
theorem test_decode_clrErr :
    decode (0b00000010#8 ++ 0b00000000#8 ++ 0b00000000#8 ++ 0b00000000#8) = .ok .clrErr := by decide
theorem test_decode_csrRd :
    decode (0b00000011#8 ++ 0b00000000#8 ++ 0b00000000#8 ++ 0b00011111#8) = .ok (.csrRd 31) := by decide
theorem test_decode_gfExp :
    decode (0b00010000#8 ++ 0b00000000#8 ++ 0b00000001#8 ++ 0b11111110#8) = .ok (.gfExp 510) := by decide
theorem test_decode_gfLog :
    decode (0b00010001#8 ++ 0b00000000#8 ++ 0b00000000#8 ++ 0b00011101#8) = .ok (.gfLog 29) := by decide
theorem test_decode_gfMul :
    decode (0b00010010#8 ++ 0b00000000#8 ++ 0b00000111#8 ++ 0b00000011#8) = .ok (.gfMul 3 7) := by decide
theorem test_decode_cwWr :
    decode (0b00100000#8 ++ 0b00000000#8 ++ 0b00010000#8 ++ 0b00000010#8) = .ok (.cwWr 2 16) := by decide
theorem test_decode_cwRd :
    decode (0b00100001#8 ++ 0b00000000#8 ++ 0b00000000#8 ++ 0b01100011#8) = .ok (.cwRd 99) := by decide
theorem test_decode_rsGen :
    decode (0b00100010#8 ++ 0b00000000#8 ++ 0b00000000#8 ++ 0b00000111#8) = .ok (.rsGen 7) := by decide
theorem test_decode_gRd :
    decode (0b00100011#8 ++ 0b00000000#8 ++ 0b00000000#8 ++ 0b00000001#8) = .ok (.gRd 1) := by decide
theorem test_decode_rsEnc :
    decode (0b00100100#8 ++ 0b00000000#8 ++ 0b00000111#8 ++ 0b00010011#8) = .ok (.rsEnc 19 7) := by decide
theorem test_decode_mxBuild :
    decode (0b00110000#8 ++ 0b00000000#8 ++ 0b00000000#8 ++ 0b00000100#8) = .ok (.mxBuild 4) := by decide
theorem test_decode_modRd :
    decode (0b00110001#8 ++ 0b00000000#8 ++ 0b00001101#8 ++ 0b00001000#8) = .ok (.modRd 8 13) := by decide
theorem test_decode_mxPlace :
    decode (0b00111000#8 ++ 0b00000000#8 ++ 0b00000000#8 ++ 0b00011010#8) = .ok (.mxPlace 26) := by decide
theorem test_decode_dlRd :
    decode (0b00111001#8 ++ 0b00000000#8 ++ 0b00000010#8 ++ 0b11111111#8) = .ok (.dlRd 767) := by decide
theorem test_decode_mkPred :
    decode (0b01000000#8 ++ 0b00000011#8 ++ 0b00010100#8 ++ 0b00001010#8) = .ok (.mkPred 3 10 20) := by
  decide
theorem test_decode_mkScore :
    decode (0b01000001#8 ++ 0b00000000#8 ++ 0b00000000#8 ++ 0b00000111#8) = .ok (.mkScore 7) := by decide
theorem test_decode_mkSel :
    decode (0b01000010#8 ++ 0b00000000#8 ++ 0b00000000#8 ++ 0b00000000#8) = .ok .mkSel := by decide
theorem test_decode_fmtEnc :
    decode (0b01010000#8 ++ 0b00000000#8 ++ 0b00000000#8 ++ 0b00001101#8) = .ok (.fmtEnc 13) := by decide
theorem test_decode_fmtPut :
    decode (0b01010001#8 ++ 0b00000000#8 ++ 0b00000000#8 ++ 0b00000001#8) = .ok (.fmtPut 1) := by decide

/-- 95, 4: an unlisted OP and a must-be-zero bit of each format. -/
theorem test_decode_rejects :
    decode 0x04000000 = .error .unknownOpcode ∧ decode 0x00000001 = .error .mustBeZero ∧
    decode 0x03000100 = .error .mustBeZero ∧ decode 0x39010000 = .error .mustBeZero ∧
    decode 0x12010000 = .error .mustBeZero := by decide

/-- R87's example. -/
theorem test_encode_mkPred : encode (.mkPred 3 10 20) = 0x4003140A := by decide

theorem test_decodeTableWord :
    decodeTableWord 32 0x24000713 = some (.rsEnc 19 7) ∧ decodeTableWord 32 0x24010713 = none := by decide

/-! The step and the ports -/

/-- Witness of StepRunsTheNextCommand and EveryStepAnswersANextState: GF.EXP 8 first in the stream, one more
word behind it. -/
theorem test_step_runs_first_word :
    step { State.reset with pending := [0x10000008, 0x00000000] } =
      .next { State.reset with res := 29, pending := [0x00000000] } ∧
    step State.reset = .next State.reset := by
  and_intros <;> first | decide +kernel | rfl

theorem test_withFetchWord :
    step (State.reset.withFetchWord 32 0x12000703) = .next { State.reset with res := 9 } := rfl

/-- Witness of PortsIssueAndRead: the ports lie at BASE, BASE + 1, BASE + 2 (R62). -/
theorem test_ports :
    portAt 100 100 = some .cmd ∧ portAt 100 102 = some .status ∧ portAt 100 99 = none ∧
    portAt 100 103 = none ∧ portWrite .cmd 0x10000008 State.reset = .next (after 0x10000008) := by
  and_intros <;> first | decide +kernel | rfl

/-! Faults, the error state -/

/-- 95, P3 rows 1, 5, 8: the first check decides. Witness of ChecksAreMadeInOrder, one state for each of its
clauses. -/
theorem test_checks_in_order :
    issue 0x41000109 State.reset = .next (raise .illegalCommand 0x41000109 State.reset) ∧
    issue 0x41000109 errState = .next errState ∧
    issue 0x12000703 errState = .next errState ∧
    issue 0x41000009 State.reset = .next (raise .badPhase 0x41000009 State.reset) ∧
    issue 0x41000008 tinyState = .next (raise .badOperand 0x41000008 tinyState) ∧
    safeCommand (.mkScore 7) tinyState = true := by
  and_intros <;> first | decide +kernel | rfl

/-- 95, P3 rows 1 and 11: STATUS after BadPhase in IDLE and after UnsupportedVersion. Witness of
FaultSavesOnlyTheErrorRegisters and of IllegalWordFaultsOrIsIgnored (0x7F000000, P3 row 8). -/
theorem test_fault_status :
    status (after 0x41000009) = 0x21 ∧ status (after 0x30000005) = 0x51 ∧
    status (after 0x7F000000) = 0x11 ∧ (after 0x7F000000).errInfo = 0x7F000000 ∧
    errState.err = true ∧ (nextOf (issue 0x12000703 errState)).err = true := by decide +kernel

/-- Witness of ErrorStateIgnoresAllButFour and ClrErrUndoesAFault. -/
theorem test_error_state :
    errState.err = true ∧ ErrorInv errState ∧ ErrorInv State.reset ∧
    issue 0x11000000 State.reset = .next errState ∧
    exec .clrErr errState = .next State.reset ∧ csr 0x1F errState = some 0 ∧
    7 ∉ csrNumbers ∧ executesInError (.gfMul 3 7) = false ∧ decode 0xFF000000 = .error .unknownOpcode := by
  and_intros <;> first | decide +kernel | rfl

/-- Witness of PhaseTransitions: each pipeline command runs in its phase (95, P3 rows 23 to 27: and faults
elsewhere). -/
theorem test_phase_machine :
    (nextOf (exec (.mxPlace 0) { State.reset with phase := .built })).phase = .placed ∧
    (nextOf (exec .mkSel { State.reset with phase := .placed })).phase = .masked ∧
    (nextOf (exec (.fmtPut 1) { State.reset with phase := .masked })).phase = .done ∧
    exec (.mxPlace 0) tinyState = .next (raise .badPhase 0x38000000 tinyState) := by
  and_intros <;> first | decide +kernel | rfl

/-! System commands -/

/-- Witness of NopChangesNothing: a bit of 23:0 set (95, 4). -/
theorem test_nop :
    exec .nop errState = .next errState ∧
    issue 0x00000001 State.reset = .next (raise .illegalCommand 1 State.reset) := by
  and_intros <;> first | decide +kernel | rfl

/-- RESET with ERR = 1 in PLACED (R201); the pending words stay (Log 1). -/
theorem test_reset :
    exec .reset { raise .badOperand 1 tinyState with pending := [7] } =
      .next { State.reset with pending := [7] } := rfl

/-- R202's example. Witness of ClrErrClearsTheErrorRegisters. -/
theorem test_clrErr :
    status errState = 0x41 ∧ status (nextOf (exec .clrErr errState)) = 0 ∧ ErrorInv State.reset := by
  decide +kernel

/-- R203's example and 95, P3 rows 18 and 20: CSR 7 is unimplemented. -/
theorem test_csrRd :
    exec (.csrRd 2) errState = .next { errState with res := 0x11000000 } ∧
    exec (.csrRd 7) errState = .next errState ∧
    exec (.csrRd 7) State.reset = .next (raise .badOperand 0x03000007 State.reset) ∧
    exec (.csrRd 0x20) State.reset = .next (raise .badOperand 0x03000020 State.reset) := by
  and_intros <;> first | decide +kernel | rfl

/-- The last CAND register and the first number past it (R41). -/
theorem test_csrRd_cand :
    exec (.csrRd 0x1F) { State.reset with cand := Vector.replicate 8 5 } =
      .next { State.reset with cand := Vector.replicate 8 5, res := 5 } := rfl

/-! GF(256): 95, 2 -/

/-- Witness of GfExpReadsTheTable, at the last legal index. -/
theorem test_gfExp :
    safeCommand (.gfExp 511) State.reset = true ∧
    exec (.gfExp 511) State.reset = .next { State.reset with res := 2 } ∧
    expAt 25 = 3 ∧ expAt 254 = 142 := by
  and_intros <;> first | decide +kernel | rfl

theorem test_gfExp_fault :
    exec (.gfExp 512) State.reset = .next (raise .badOperand 0x10000200 State.reset) ∧
    issue 0x10010000 State.reset = .next (raise .illegalCommand 0x10010000 State.reset) := by
  and_intros <;> first | decide +kernel | rfl

/-- Witness of GfLogReadsTheTable and LogIsTheUniqueExponent. -/
theorem test_gfLog :
    safeCommand (.gfLog 255) State.reset = true ∧ logAt 255 = some 175 ∧
    exec (.gfLog 142) State.reset = .next { State.reset with res := 254 } := by
  and_intros <;> first | decide +kernel | rfl

theorem test_gfLog_fault : exec (.gfLog 0) State.reset = .next errState := rfl

/-- Witness of GfMulReturnsTheProduct and MulIsTheFieldProduct. -/
theorem test_gfMul :
    exec (.gfMul 200 100) State.reset = .next { State.reset with res := 79 } ∧
    exec (.gfMul 0 200) errState = .next errState ∧
    gfMul 255 255 = 226 ∧ fieldProduct 255 255 = 226 ∧ (logAt 200).isSome = true := by
  and_intros <;> first | decide +kernel | rfl

/-! Codeword buffer and Reed-Solomon engine: 95, 3 -/

/-- Witness of CwWrWritesOneByte, at the last byte. -/
theorem test_cwWr :
    safeCommand (.cwWr 99 0x10) State.reset = true ∧
    (nextOf (exec (.cwWr 99 0x10) State.reset)).cwbuf[99] = 0x10 ∧
    (nextOf (exec (.cwWr 99 0x10) State.reset)).cwbuf[98] = 0 := by decide +kernel

theorem test_cwWr_fault :
    exec (.cwWr 100 1) State.reset = .next (raise .badOperand 0x20000164 State.reset) := rfl

/-- R126's example. Witness of CwRdReturnsOneByte. -/
theorem test_cwRd :
    safeCommand (.cwRd 99) State.reset = true ∧
    exec (.cwRd 2) (after 0x20001002) = .next { after 0x20001002 with res := 16 } := by
  and_intros <;> first | decide +kernel | rfl

theorem test_cwRd_fault :
    exec (.cwRd 100) State.reset = .next (raise .badOperand 0x21000064 State.reset) := rfl

/-- Witness of RsGenLoadsTheGenerator, at both ends of the range. -/
theorem test_rsGen :
    genPoly 3 = [1, 7, 14, 8] ∧ (after 0x22000007).g.toList.take 9 = [1, 127, 122, 154, 164, 11, 68, 117, 0] ∧
    (after 0x22000007).ge = 7 ∧ safeCommand (.rsGen 1) State.reset = true ∧
    safeCommand (.rsGen 20) State.reset = true := by decide +kernel

theorem test_rsGen_fault :
    exec (.rsGen 0) State.reset = .next (raise .badOperand 0x22000000 State.reset) ∧
    exec (.rsGen 21) State.reset = .next (raise .badOperand 0x22000015 State.reset) := by
  and_intros <;> first | decide +kernel | rfl

/-- Witness of GRdReturnsOneCoefficient and GeneratorFileStaysConsistent. -/
theorem test_gRd :
    GeneratorInv (after 0x22000002) ∧ safeCommand (.gRd 2) (after 0x22000002) = true ∧
    exec (.gRd 2) (after 0x22000002) = .next { after 0x22000002 with res := 2 } := by
  and_intros <;> first | decide +kernel | rfl

theorem test_gRd_fault :
    exec (.gRd 0) State.reset = .next (raise .badOperand 0x23000000 State.reset) ∧
    exec (.gRd 3) (after 0x22000002) = .next (raise .badOperand 0x23000003 (after 0x22000002)) := by
  and_intros <;> first | decide +kernel | rfl

/-- Witness of RsEncWritesTheRemainder and RsEncLeavesACodeword, with the bounds of its range. -/
theorem test_rsEnc :
    (nextOf (exec (.rsEnc 3 2) (writeCwRun 0 [0x12, 0x34, 0x56] State.reset))).cwbuf.toList.take 6 =
      [0x12, 0x34, 0x56, 0x98, 0xE8, 0] ∧
    rsRem [0, 0, 1] 2 = [3, 2] ∧ rsRem (List.replicate 19 0xFF) 7 =
      [0x5B, 0xEF, 0xEA, 0x2A, 0x03, 0xF9, 0x71] ∧
    safeCommand (.rsEnc 80 20) State.reset = true ∧ safeCommand (.rsEnc 0 1) State.reset = true := by
  decide +kernel

theorem test_rsEnc_fault :
    exec (.rsEnc 81 20) State.reset = .next (raise .badOperand 0x24001451 State.reset) ∧
    exec (.rsEnc 3 0) State.reset = .next (raise .badOperand 0x24000003 State.reset) ∧
    exec (.rsEnc 3 21) State.reset = .next (raise .badOperand 0x24001503 State.reset) := by
  and_intros <;> first | decide +kernel | rfl

/-- Witness of RemainderIsLinear: two data runs of equal length, by 95, 3's first row scaled by 1. -/
theorem test_linear_data : [(1 : Byte), 2].length = [(3 : Byte), 4].length ∧ rsRem [1] 2 = [3, 2] := by
  decide +kernel

/-! Matrix builder: 95, 5 -/

/-- Witness of MxBuildStartsAFreshMatrix, at both ends of the range. -/
theorem test_mxBuild :
    safeCommand (.mxBuild 1) State.reset = true ∧ safeCommand (.mxBuild 4) State.reset = true ∧
    (after 0x30000001).res = 21 ∧ status (after 0x30000001) = 0x102 ∧
    (after 0x30000001).mat.flatten.count .dark = 106 ∧
    (after 0x30000001).mat.flatten.count .unset = 208 := by decide +kernel

theorem test_mxBuild_fault :
    exec (.mxBuild 0) State.reset = .next (raise .unsupportedVersion 0x30000000 State.reset) ∧
    exec (.mxBuild 5) State.reset = .next (raise .unsupportedVersion 0x30000005 State.reset) := by
  and_intros <;> first | decide +kernel | rfl

/-- The cells of MX.BUILD 2 that 95, 5 lists around the alignment pattern, as MOD.RD's results. Witness of
ModRdReturnsTheModule, with the corner of the grid. -/
theorem test_modRd :
    settleCanvas (functionPatterns 2) (fun c =>
      let s := { State.reset with phase := .built, ver := 2, size := 25, mat := c.mat, rsv := c.rsv }
      [(0, 0), (1, 1), (7, 7), (8, 6), (17, 8), (16, 8), (8, 17), (18, 18), (17, 17), (16, 18), (15, 18),
        (24, 24), (0, 24)].map fun q => (nextOf (exec (.modRd q.1 q.2) s)).res.toNat) =
    [5, 4, 4, 5, 4, 2, 5, 5, 4, 5, 2, 2, 5] := by decide +kernel

theorem test_modRd_fault :
    exec (.modRd 0 0) State.reset = .next (raise .badPhase 0x31000000 State.reset) ∧
    exec (.modRd 5 0) tinyState = .next (raise .badOperand 0x31000005 tinyState) ∧
    exec (.modRd 0 5) tinyState = .next (raise .badOperand 0x31000500 tinyState) := by
  and_intros <;> first | decide +kernel | rfl

/-! Data placer: 95, 6 -/

/-- The first entries of program P2's stream. Witness of MxPlaceRoutesTheStream. -/
theorem test_mxPlace :
    settleCanvas (functionPatterns 1) (fun c =>
      let s := { State.reset with phase := .built, ver := 1, size := 21, mat := c.mat, rsv := c.rsv }
      let t := nextOf (exec (.mxPlace 100) (writeCwRun 0 [0x40] s))
      (t.res.toNat, t.dlist.length, t.dlist.take 4)) =
    (208, 208, [⟨20, 20, false⟩, ⟨19, 20, true⟩, ⟨20, 19, false⟩, ⟨19, 19, false⟩]) := by decide +kernel

theorem test_mxPlace_fault :
    let s := { State.reset with phase := .built }
    exec (.mxPlace 101) s = .next (raise .badOperand 0x38000065 s) ∧
    exec (.mxPlace 0) State.reset = .next (raise .badPhase 0x38000000 State.reset) := by
  intro s; and_intros <;> first | decide +kernel | rfl

/-- Entries 1, 23 and 207 of version 1, here with value 0. Witness of DlRdReturnsOneEntry. -/
theorem test_dlRd :
    [1, 23, 207].map (fun i => (nextOf (exec (.dlRd i) (drawnState .done))).res.toNat) =
      [0x1413, 0x0913, 0x0C00] ∧
    (nextOf (exec (.dlRd 0) { tinyState with dlist := [⟨0, 12, true⟩] })).res = 0x00010C00 := by
  decide +kernel

theorem test_dlRd_fault :
    exec (.dlRd 0) (after 0x30000001) = .next (raise .badPhase 0x39000000 (after 0x30000001)) ∧
    exec (.dlRd 0) State.reset = .next (raise .badPhase 0x39000000 State.reset) ∧
    exec (.dlRd 1) tinyState = .next (raise .badOperand 0x39000001 tinyState) := by
  and_intros <;> first | decide +kernel | rfl

/-! Mask scorer: 95, 7 -/

/-- The rows (5, 4), (20, 20) and (255, 255) of the table. Witness of MkPredReturnsThePredicate. -/
theorem test_mkPred :
    (List.range 8).map (fun p => maskPred p 5 4) = [false, true, false, true, false, false, true, false] ∧
    (List.range 8).map (fun p => maskPred p 20 20) = [true, true, false, false, true, false, false, false] ∧
    exec (.mkPred 7 255 255) State.reset = .next { State.reset with res := 1 } := by
  and_intros <;> first | decide +kernel | rfl

theorem test_mkPred_fault :
    exec (.mkPred 8 0 0) State.reset = .next (raise .badOperand 0x40080000 State.reset) := rfl

theorem test_rule1_lines :
    [[1, 1, 1, 1, 1], [1, 1, 1, 1, 1, 1], [1, 1, 1, 1], [1, 1, 1, 1, 1, 0, 0, 0, 0, 0],
      List.replicate 21 0].map (fun l => runPenalty (line l)) = [3, 4, 0, 6, 19] := by decide +kernel

/-- The counts that PenaltiesAreBounded compares with, on the example lines of R173 and R175. -/
theorem test_counted_rules :
    runsPenalty 12 (fun k => (line [1, 1, 1, 1, 1, 0, 0, 0, 0, 0, 0, 1])[k]?) = 7 ∧
    (let cell (k : Nat) := (line [0, 0, 0, 0, 1, 0, 1, 1, 1, 0, 1, 0, 0, 0, 0])[k]?
     windowMatches 15 finderBits cell = 1 ∧ windowMatches 15 finderBits.reverse cell = 1) := by
  decide +kernel

theorem test_rule2_areas :
    rule2 (List.replicate 2 (line [0, 0, 0])) = 6 ∧ rule2 (List.replicate 3 (line [1, 1, 1])) = 12 := by
  decide +kernel

theorem test_rule3_lines :
    [[1, 0, 1, 1, 1, 0, 1, 0, 0, 0, 0], [0, 0, 0, 0, 1, 0, 1, 1, 1, 0, 1],
      [0, 0, 0, 0, 1, 0, 1, 1, 1, 0, 1, 0, 0, 0, 0], [1, 0, 1, 1, 1, 0, 1]].map
      (fun l => rule3 0 [line l]) = [40, 40, 80, 0] := by decide +kernel

theorem test_rule4_balance :
    [220, 199, 198, 243, 154, 0, 441].map (fun d => balancePenalty d 441) = [0, 0, 10, 10, 30, 100, 100] := by
  decide +kernel

/-- The row p = 0 of the penalty table for `MX.BUILD 1; MX.PLACE 0`. -/
theorem test_score_zero_data :
    settleGrid (candidate 0 (drawnState .placed)) (scoreGrid 21) = ⟨156, 108, 0, 0⟩ := by decide +kernel

/-- By hand from R173 to R176: mask 5 leaves the 5 x 5 grid Light, mask 0 makes (1, 1) Dark. Witness of
MkScoreLatchesThePenalties. -/
theorem test_mkScore :
    exec (.mkScore 5) tinyState =
      .next { tinyState with pen1 := 30, pen2 := 48, pen3 := 0, pen4 := 100, pent := 178, res := 178 } ∧
    exec (.mkScore 0) tinyState =
      .next { tinyState with pen1 := 24, pen2 := 36, pen3 := 0, pen4 := 90, pent := 150, res := 150 } := by
  and_intros <;> first | decide +kernel | rfl

theorem test_mkScore_fault :
    exec (.mkScore 8) tinyState = .next (raise .badOperand 0x41000008 tinyState) ∧
    exec (.mkScore 0) State.reset = .next (raise .badPhase 0x41000000 State.reset) := by
  and_intros <;> first | decide +kernel | rfl

/-- By hand: masks 0, 4 and 6 flip (1, 1) and tie at 150, the rest score 178, so the least id, 0, is committed
(R178). Witness of MkSelCommitsTheLeastMinimum. -/
theorem test_mkSel :
    safeCommand .mkSel tinyState = true ∧
    (nextOf (exec .mkSel tinyState)).cand.toList = [150, 178, 178, 178, 150, 178, 150, 178] ∧
    (nextOf (exec .mkSel tinyState)).maskId = 0 ∧ (nextOf (exec .mkSel tinyState)).bestPen = 150 := by
  decide +kernel

theorem test_mkSel_fault :
    exec .mkSel State.reset = .next (raise .badPhase 0x42000000 State.reset) := rfl

/-- The scan with CAND of program P4: 529 at id 4 (95, 7). -/
theorem test_selectBest :
    selectBest ([744, 641, 571, 755, 529, 697, 703, 714].map fun t => ⟨t, 0, 0, 0⟩) = (4, ⟨529, 0, 0, 0⟩) := by
  decide +kernel

/-! Format information: 95, 8 -/

/-- Witness of FmtEncReturnsTheCode, at the last legal value. -/
theorem test_fmtEnc :
    exec (.fmtEnc 31) State.reset = .next { State.reset with res := 0x2BED } ∧
    [1, 8, 12, 15].map (fun d => (bch15 d).toNat) = [0x5125, 0x77C4, 0x662F, 0x6976] := by
  and_intros <;> first | decide +kernel | rfl

theorem test_fmtEnc_fault :
    exec (.fmtEnc 32) State.reset = .next (raise .badOperand 0x50000020 State.reset) := rfl

/-- MASKID = 4, n = 25: both copies, in the order and with the values of 95, 8. -/
theorem test_fmtPut :
    let s := { State.reset with
      phase := .masked, ver := 2, size := 25, maskId := 4, mat := Grid.fill 25 .unset }
    let t := nextOf (exec (.fmtPut 1) s)
    let bits := line [1, 1, 1, 1, 0, 1, 0, 0, 0, 1, 1, 0, 0, 1, 1]
    t.fmtReg = 0x662F ∧ t.phase = .done ∧
    [(8, 0), (8, 1), (8, 2), (8, 3), (8, 4), (8, 5), (8, 7), (8, 8), (7, 8), (5, 8), (4, 8), (3, 8), (2, 8),
      (1, 8), (0, 8)].map (fun q => t.mat.get? q.1 q.2) = bits.map some ∧
    [(24, 8), (23, 8), (22, 8), (21, 8), (20, 8), (19, 8), (18, 8), (17, 8), (8, 18), (8, 19), (8, 20),
      (8, 21), (8, 22), (8, 23), (8, 24)].map (fun q => t.mat.get? q.1 q.2) = bits.map some ∧
    t.mat.get? 8 6 = some .unset := by decide +kernel

theorem test_fmtPut_fault :
    let s := { State.reset with phase := .masked }
    exec (.fmtPut 0) s = .next (raise .badOperand 0x51000000 s) ∧
    exec (.fmtPut 2) s = .next (raise .badOperand 0x51000002 s) ∧
    exec (.fmtPut 1) State.reset = .next (raise .badPhase 0x51000001 State.reset) := by
  intro s; and_intros <;> first | decide +kernel | rfl

/-! Witnesses of the invariants and of the statements about grids -/

/-- Witness in BUILT of GeometryIsKept, NoModuleIsLeftUnset and FunctionModulesAreKept, and the premises of
ModRdReturnsTheModule (x = y = 20) and MxPlaceRoutesTheStream (m = 100). -/
theorem test_witness_built :
    settleCanvas (functionPatterns 1) (fun c =>
      let s := { State.reset with phase := .built, ver := 1, size := 21, mat := c.mat, rsv := c.rsv }
      matrixInvariants s && safeCommand (.modRd 20 20) s && safeCommand (.mxPlace 100) s) = true := by decide +kernel

/-- Witness in PLACED of the five invariants, and the premises of CandidateMasksOnlyDataModules. -/
theorem test_witness_placed :
    (matrixInvariants (drawnState .placed) && hasData (drawnState .placed)) = true := by decide +kernel

/-- Witness in MASKED of the five invariants, and the premises of FmtPutWritesBothCopies. -/
theorem test_witness_masked :
    (matrixInvariants (drawnState .masked) && safeCommand (.fmtPut 1) (drawnState .masked)) = true := by
  decide +kernel

/-- Witness in DONE of the five invariants, the format word written. -/
theorem test_witness_done : matrixInvariants doneState = true := by decide +kernel

/-- Witness of ErrorRegistersAndPenaltySumStayConsistent with ERR = 1 and a sum that is not 0. -/
theorem test_witness_error_and_sum :
    let s := { errState with pen1 := 30, pen2 := 48, pen4 := 100, pent := 178 }
    ErrorInv s ∧ PenaltySumInv s ∧ step s = .next s := by
  intro s; and_intros <;> first | decide +kernel | rfl

/-- Witness of ReadsChangeOnlyResAndRepeat: a read with RES changed, and a repeatable writer. -/
theorem test_witness_repeat :
    exec (.gfExp 8) (after 0x10000008) = .next (after 0x10000008) ∧
    exec (.cwWr 2 16) (after 0x20001002) = .next (after 0x20001002) := by
  and_intros <;> first | decide +kernel | rfl

/-- Witness of PenaltiesAreBounded, at both ends of the range. -/
theorem test_witness_grid_sizes :
    (Grid.fill 0 QrModule.light).wf 0 = true ∧ (Grid.fill 33 QrModule.dark).wf 33 = true := by
  decide +kernel

/-! Host procedures: 95, 9 -/

/-- Witness of SelectVersionIsTheSmallestThatFits. -/
theorem test_selectVersion :
    [0, 17, 18, 32, 33, 53, 54, 78].map selectVersion = [.ok 1, .ok 1, .ok 2, .ok 2, .ok 3, .ok 3, .ok 4, .ok 4] ∧
    selectVersion 79 = .error .dataTooLong ∧
    generate (List.replicate 79 0) .levelL = .error .dataTooLong := by decide +kernel

/-- The 17 bytes 61 to 71 fill version 1 without a pad byte. Witness of DataCodewordsInClosedForm, with version
4 at its capacity. -/
theorem test_dataCodewords :
    dataCodewords ((List.range 17).map fun i => BitVec.ofNat 8 (0x61 + i)) 1 =
      [0x41, 0x16, 0x16, 0x26, 0x36, 0x46, 0x56, 0x66, 0x76, 0x86, 0x96, 0xA6, 0xB6, 0xC6, 0xD6, 0xE6, 0xF7,
        0x07, 0x10] ∧
    dataCodewords [] 1 = [0x40, 0, 0xEC, 0x11, 0xEC, 0x11, 0xEC, 0x11, 0xEC, 0x11, 0xEC, 0x11, 0xEC, 0x11,
      0xEC, 0x11, 0xEC, 0x11, 0xEC] ∧
    (List.replicate 78 (0 : Byte)).length ≤ Config.capBytes 4 := by decide +kernel

/-- "A" gives the words of program P2 (95, 10). Witness of GenerateDrawsTheSymbol's premise. -/
theorem test_generate :
    ((generate [0x41] .levelH).toOption.map fun cmds => cmds.map encode) = some
      ([0x01000000, 0x20004000, 0x20001401, 0x20001002, 0x2000EC03, 0x20001104, 0x2000EC05, 0x20001106,
        0x2000EC07, 0x20001108, 0x2000EC09, 0x2000110A, 0x2000EC0B] ++
       [0x2000110C, 0x2000EC0D, 0x2000110E, 0x2000EC0F, 0x20001110, 0x2000EC11, 0x20001112, 0x24000713,
        0x30000001, 0x3800001A, 0x42000000, 0x51000001]) := by decide +kernel

theorem test_interleave :
    interleave [⟨[1, 2, 3], [10, 11]⟩, ⟨[4, 5, 6, 7], [12, 13]⟩] =
      [1, 4, 2, 5, 3, 6, 7, 10, 12, 11, 13] := by decide +kernel

/-- R87: an assembler line and its word. -/
theorem test_assembler :
    (assembleLine "MK.PRED 3, 10, 20".toList).map encode = some 0x4003140A ∧
    (assembleLine "CW.WR 0, 0x40".toList).map encode = some 0x20004000 := by decide +kernel

/-- Log 13: a blank inside an operand rejects the line. -/
theorem test_assembler_inner_blank :
    assembleLine "CW.RD 1 2".toList = none ∧ assembleLine "GF.EXP 0 x10".toList = none ∧
    assembleLine "CW.RD  12 ; twelve".toList = some (.cwRd 12) := by decide +kernel

end Sys2Proof.Tests
end

section
/-! PROOFS. What one command and one step can do, said once (R230 to R236), and which items they leave alone. The
invariants of the later sections follow from these lemmas. -/

namespace Sys2Proof.Machine

variable {s t : State} {i : Instr}

/-! A command as its checks and its effect -/

/-- The state a command leaves once no check has stopped it (step (5) of R230). -/
def effectOf : Instr → State → State
  | .nop, s => s
  | .reset, s => { State.reset with pending := s.pending }
  | .clrErr, s => clearError s
  | .csrRd n, s => setRes ((csr n s).getD 0) s
  | .gfExp k, s => setRes ((expAt k).setWidth 32) s
  | .gfLog a, s => setResNat ((logAt a).getD 0) s
  | .gfMul a b, s => setRes ((gfMul a b).setWidth 32) s
  | .cwWr idx val, s => writeCw idx val s
  | .cwRd idx, s => setRes ((readCw idx s).setWidth 32) s
  | .rsGen e, s => setResNat e (loadG e (genPoly e) s)
  | .gRd j, s => setRes ((readG j s).setWidth 32) s
  | .rsEnc k e, s => encodeBlock k e s
  | .mxBuild v, s => buildMatrix v s
  | .modRd x y, s => setResNat (moduleWord x y s) s
  | .mxPlace m, s => placeData m s
  | .dlRd k, s => setResNat ((s.dlist[k]?.map Entry.toNat).getD 0) s
  | .mkPred p x y, s => setResNat (maskPred p x y).toNat s
  | .mkScore p, s => scoreMask p s
  | .mkSel, s => selectMask s
  | .fmtEnc d, s => setRes ((bch15 (BitVec.ofNat 5 d)).setWidth 32) s
  | .fmtPut lvl, s => putFormat lvl s

/-- `perform` uses the effect at the state only. -/
theorem perform_congr {admitted admitted' : Bool} {operand operand' : Option ErrCode}
    {effect effect' : State → State} (ha : admitted = admitted') (ho : operand = operand')
    (he : effect s = effect' s) :
    perform i admitted operand effect s = perform i admitted' operand' effect' s := by
  simp only [perform, ha, ho, he]

/-- An operand check read as the operand table writes it (R233). -/
theorem faultIf_eq_ite {b : Bool} {p : Prop} [Decidable p] {c : ErrCode} (h : b = true ↔ p) :
    faultIf b c = if p then some c else none := by
  by_cases hp : p
  · simp [faultIf, hp, h.mpr hp]
  · simp [faultIf, hp, mt h.mp hp]

theorem faultIf_decide (p : Prop) [Decidable p] (c : ErrCode) :
    faultIf (decide p) c = if p then some c else none :=
  faultIf_eq_ite decide_eq_true_iff

theorem checkEccLength_eq (e : Nat) (s : State) : checkEccLength e = operandError (.rsGen e) s := by
  refine faultIf_eq_ite ?_
  simp only [Bool.or_eq_true, decide_eq_true_eq]
  simp only [Config.eMax]
  omega

theorem checkBlock_eq (k e : Nat) (s : State) : checkBlock k e = operandError (.rsEnc k e) s := by
  refine faultIf_eq_ite ?_
  simp only [Bool.or_eq_true, decide_eq_true_eq]
  simp only [Config.eMax, Config.cwSize]
  omega

theorem hasMatrix_eq (x y : Nat) (s : State) : hasMatrix s = admittedIn (.modRd x y) s.phase := by
  unfold hasMatrix
  cases s.phase <;> rfl

theorem hasData_eq (k : Nat) (s : State) : hasData s = admittedIn (.dlRd k) s.phase := by
  unfold hasData
  cases s.phase <;> rfl

/-- A command admitted in the one phase `p` (R236). -/
theorem inPhase_eq {p : Phase} (hi : admittingPhases i = some [p]) (s : State) :
    inPhase p s = admittedIn i s.phase := by
  rw [Bool.eq_iff_iff]
  simp [inPhase, admittedIn, hi]

/-- Every command that ERR = 1 suppresses is `perform` with the admission table (R236), the operand table (R233)
and its effect. -/
theorem exec_eq_perform (h : executesInError i = false) (s : State) :
    exec i s = perform i (admittedIn i s.phase) (operandError i s) (effectOf i) s := by
  cases i with
  | nop | reset | clrErr | csrRd => cases h
  | gfMul a b => rfl
  | gfLog a => exact perform_congr rfl (faultIf_eq_ite beq_iff_eq) rfl
  | gfExp | cwWr | cwRd | mkPred | fmtEnc => exact perform_congr rfl (faultIf_decide _ _) rfl
  | rsGen e =>
    exact perform_congr (effect := fun s => setResNat e (loadG e (genPoly e) s)) rfl
      (checkEccLength_eq e s) rfl
  | gRd j => exact perform_congr rfl (faultIf_eq_ite (by simp)) rfl
  | rsEnc k e => exact perform_congr rfl (checkBlock_eq k e s) rfl
  | mxBuild v => exact perform_congr rfl (faultIf_eq_ite (by simp)) rfl
  | modRd x y => exact perform_congr (hasMatrix_eq x y s) (faultIf_eq_ite (by simp)) rfl
  | dlRd k => exact perform_congr (hasData_eq k s) (faultIf_decide _ _) rfl
  | mxPlace | mkScore => exact perform_congr (inPhase_eq rfl s) (faultIf_decide _ _) rfl
  | mkSel => exact (congrArg (perform .mkSel · none selectMask s) (inPhase_eq rfl s)).trans rfl
  | fmtPut lvl => exact perform_congr (inPhase_eq rfl s) (faultIf_eq_ite bne_iff_ne) rfl

/-- No operand check raises the code that stands for no error (R233). -/
theorem operandError_ne_noError (i : Instr) (s : State) : operandError i s ≠ some .noError := by
  cases i <;> simp [operandError]

/-- Everything a command can do: be ignored, fault, or have its effect. -/
theorem exec_cases (h : exec i s = .next t) :
    (s.err = true ∧ t = s) ∨
    (∃ c, s.err = false ∧ c ≠ .noError ∧ t = raise c (encode i) s) ∨
    ((executesInError i = true ∨ safeCommand i s = true) ∧ t = effectOf i s) := by
  cases hi : executesInError i with
  | false =>
    rw [exec_eq_perform hi] at h
    obtain ⟨he, rfl⟩ | ⟨he, -, rfl⟩ | ⟨c, he, -, hc, rfl⟩ | ⟨he, ha, ho, rfl⟩ := perform_cases h
    · exact .inl ⟨he, rfl⟩
    · exact .inr (.inl ⟨_, he, by decide, rfl⟩)
    · exact .inr (.inl ⟨c, he, fun hn => operandError_ne_noError i s (hn ▸ hc), rfl⟩)
    · exact .inr (.inr ⟨.inr (by simp [safeCommand, he, ha, ho]), rfl⟩)
  | true =>
    cases i <;> simp only [executesInError, reduceCtorEq] at hi
    case csrRd n =>
      simp only [exec, execCsrRd] at h
      split at h
      case h_1 v hv => exact .inr (.inr ⟨.inl rfl, by simpa [effectOf, hv] using h.symm⟩)
      case h_2 hv =>
        obtain ⟨he, rfl⟩ | ⟨_, ha, _⟩ | ⟨c, he, -, hc, rfl⟩ | ⟨_, -, ho, -⟩ := perform_cases h
        · exact .inl ⟨he, rfl⟩
        · cases ha
        · exact .inr (.inl ⟨c, he, by simp [(faultIf_eq_some.mp hc).2], rfl⟩)
        · simp [checkCsr, faultIf, hv] at ho
    all_goals
      exact .inr (.inr ⟨.inl rfl, by simpa [exec, execNop, execReset, execClrErr, effectOf] using h.symm⟩)

/-- Everything the issue of a word can do. -/
theorem issue_cases {w : Word} (h : issue w s = .next t) :
    t = rejectWord w s ∨ ∃ i, decode w = .ok i ∧ exec i s = .next t := by
  unfold issue at h
  split at h
  · exact .inl (by simpa using h.symm)
  case h_2 i hi => exact .inr ⟨i, hi, h⟩

/-- What taking a word, a fault and every command keep, a step keeps. -/
theorem step_keeps {P : State → Prop} (take : ∀ s ws, P s → P { s with pending := ws })
    (fault : ∀ c w s, c ≠ .noError → P s → P (raise c w s))
    (run : ∀ i s, executesInError i = true ∨ safeCommand i s = true → P s → P (effectOf i s))
    (h : step s = .next t) (hs : P s) : P t := by
  obtain ⟨-, rfl⟩ | ⟨w, ws, -, hw⟩ := step_cases h
  · exact hs
  · have hs' := take s ws hs
    obtain rfl | ⟨i, -, hi⟩ := issue_cases hw
    · unfold rejectWord
      split
      · exact hs'
      · exact fault _ _ _ (by decide) hs'
    · obtain ⟨-, rfl⟩ | ⟨c, -, hc, rfl⟩ | ⟨hrun, rfl⟩ := exec_cases hi
      · exact hs'
      · exact fault _ _ _ hc hs'
      · exact run _ _ hrun hs'

/-! What an effect does to the error registers and to PHASE -/

/-- RESET and CLRERR clear the error registers; every other effect leaves them (R22). -/
theorem effectOf_errorRegisters (i : Instr) (s : State) :
    ((effectOf i s).err = false ∧ (effectOf i s).errCode = .noError ∧ (effectOf i s).errInfo = 0) ∨
    ((effectOf i s).err = s.err ∧ (effectOf i s).errCode = s.errCode ∧
      (effectOf i s).errInfo = s.errInfo) := by
  cases i with
  | reset | clrErr => exact .inl ⟨rfl, rfl, rfl⟩
  | rsEnc k e => exact .inr (by simp [effectOf, encodeBlock])
  | mkSel => exact .inr (by simp [effectOf, selectMask])
  | _ => exact .inr ⟨rfl, rfl, rfl⟩

/-- An effect never sets ERR. -/
theorem effectOf_err_eq_false (i : Instr) (h : s.err = false) : (effectOf i s).err = false := by
  obtain ⟨he, -⟩ | ⟨he, -⟩ := effectOf_errorRegisters i s
  · exact he
  · rw [he, h]

/-- The phase a command's effect leaves, from the phase before (R23). -/
def phaseAfter : Instr → Phase → Phase
  | .reset, _ => .idle
  | .mxBuild _, _ => .built
  | .mxPlace _, _ => .placed
  | .mkSel, _ => .masked
  | .fmtPut _, _ => .done
  | _, p => p

theorem effectOf_phase (i : Instr) (s : State) : (effectOf i s).phase = phaseAfter i s.phase := by
  cases i with
  | rsEnc k e => simp [effectOf, encodeBlock, phaseAfter]
  | _ => rfl

/-- The three checks of a command that has its effect (R230). -/
theorem safeCommand_iff :
    safeCommand i s = true ↔
      s.err = false ∧ admittedIn i s.phase = true ∧ operandError i s = none := by
  simp [safeCommand, and_assoc]

/-- Of the commands that have their effect, those that ERR = 1 suppresses are the safe ones (R232). -/
theorem safeCommand_of_runs (hi : executesInError i = false)
    (h : executesInError i = true ∨ safeCommand i s = true) : safeCommand i s = true :=
  h.resolve_left (by simp [hi])

/-- A suppressible command's next phase: as before where ERR is set afterwards, else the effect's. -/
theorem exec_phase (hi : executesInError i = false) (h : exec i s = .next t) :
    t.phase = if t.err = true then s.phase else phaseAfter i s.phase := by
  obtain ⟨he, rfl⟩ | ⟨c, -, -, rfl⟩ | ⟨hrun, rfl⟩ := exec_cases h
  · simp [he]
  · simp
  · have hs := (safeCommand_iff.mp (safeCommand_of_runs hi hrun)).1
    simp [effectOf_err_eq_false i hs, effectOf_phase]

/-- A command that changes no phase leaves PHASE in all its outcomes. -/
theorem exec_phase_eq (hi : phaseAfter i s.phase = s.phase) (h : exec i s = .next t) :
    t.phase = s.phase := by
  obtain ⟨-, rfl⟩ | ⟨c, -, -, rfl⟩ | ⟨-, rfl⟩ := exec_cases h
  · rfl
  · rfl
  · rw [effectOf_phase, hi]

/-- A suppressible command that leaves ERR clear was admitted with legal operands. -/
theorem exec_runs (hi : executesInError i = false) (h : exec i s = .next t) (he : t.err = false) :
    safeCommand i s = true := by
  obtain ⟨hs, rfl⟩ | ⟨c, -, -, rfl⟩ | ⟨hrun, -⟩ := exec_cases h
  · simp [hs] at he
  · simp at he
  · exact safeCommand_of_runs hi hrun

/-- A command admitted in one phase only runs in that phase (R236). -/
theorem phase_eq_of_safeCommand {p : Phase} (hi : admittingPhases i = some [p])
    (h : safeCommand i s = true) : s.phase = p := by
  simpa [admittedIn, hi] using (safeCommand_iff.mp h).2.1

/-! The items of the matrix pipeline -/

/-- `t` agrees with `s` in every item that the matrix invariants speak of. -/
structure SameMatrix (s t : State) : Prop where
  phase : t.phase = s.phase
  ver : t.ver = s.ver
  size : t.size = s.size
  mat : t.mat = s.mat
  rsv : t.rsv = s.rsv
  dlist : t.dlist = s.dlist
  maskId : t.maskId = s.maskId
  bestPen : t.bestPen = s.bestPen
  cand : t.cand = s.cand
  fmtReg : t.fmtReg = s.fmtReg

theorem sameMatrix_pending (s : State) (ws : List Word) : SameMatrix s { s with pending := ws } :=
  ⟨rfl, rfl, rfl, rfl, rfl, rfl, rfl, rfl, rfl, rfl⟩

theorem sameMatrix_raise (c : ErrCode) (w : Word) (s : State) : SameMatrix s (raise c w s) :=
  ⟨rfl, rfl, rfl, rfl, rfl, rfl, rfl, rfl, rfl, rfl⟩

/-- The commands whose effect touches an item of the matrix pipeline. -/
def writesMatrix : Instr → Bool
  | .reset | .mxBuild _ | .mxPlace _ | .mkSel | .fmtPut _ => true
  | _ => false

theorem effectOf_sameMatrix (hi : writesMatrix i = false) (s : State) : SameMatrix s (effectOf i s) := by
  cases i with
  | reset | mxBuild | mxPlace | mkSel | fmtPut => cases hi
  | rsEnc k e => constructor <;> simp [effectOf, encodeBlock]
  | _ => exact ⟨rfl, rfl, rfl, rfl, rfl, rfl, rfl, rfl, rfl, rfl⟩

/-- A property of the matrix items that reset has and the four pipeline commands keep is kept by every step. -/
theorem step_keeps_matrix {P : State → Prop} (frame : ∀ s t, SameMatrix s t → P s → P t)
    (reset : P State.reset)
    (build : ∀ v s, 1 ≤ v → v ≤ 4 → P (buildMatrix v s))
    (place : ∀ m s, s.phase = .built → P s → P (placeData m s))
    (select : ∀ s, s.phase = .placed → P s → P (selectMask s))
    (format : ∀ s, s.phase = .masked → P s → P (putFormat 1 s))
    (h : step s = .next t) (hs : P s) : P t := by
  refine step_keeps (fun s ws => frame _ _ (sameMatrix_pending s ws))
    (fun c w s _ => frame _ _ (sameMatrix_raise c w s)) (fun i s hrun hs => ?_) h hs
  cases i with
  | reset => exact frame _ _ (sameMatrix_pending _ _) reset
  | mxBuild v =>
    obtain ⟨-, -, hv⟩ := safeCommand_iff.mp (safeCommand_of_runs rfl hrun)
    have hv : ¬ (v = 0 ∨ v > 4) := by simpa [operandError] using hv
    exact build v s (by omega) (by omega)
  | mxPlace m => exact place m s (phase_eq_of_safeCommand rfl (safeCommand_of_runs rfl hrun)) hs
  | mkSel => exact select s (phase_eq_of_safeCommand rfl (safeCommand_of_runs rfl hrun)) hs
  | fmtPut l =>
    obtain ⟨-, -, hl⟩ := safeCommand_iff.mp (safeCommand_of_runs rfl hrun)
    obtain rfl : l = 1 := by simpa [operandError] using hl
    exact format s (phase_eq_of_safeCommand rfl (safeCommand_of_runs rfl hrun)) hs
  | _ => exact frame _ _ (effectOf_sameMatrix rfl s) hs

end Sys2Proof.Machine
end

section
/-! PROOFS. STATUS (R40), the transitions of PHASE (R23), the error registers and the penalty sum (R22, R35), and the
generator file (R28). -/

namespace Sys2Proof.Machine

variable {s t : State} {i : Instr}

/-! STATUS -/

/-- The number of two fields set side by side. -/
theorem toNat_append_eq_add {m n : Nat} (x : BitVec m) (y : BitVec n) :
    (x ++ y).toNat = x.toNat * 2 ^ n + y.toNat := by
  rw [BitVec.toNat_append, ← Nat.shiftLeft_add_eq_or_of_lt y.isLt, Nat.shiftLeft_eq]

theorem status_toNat (s : State) : (status s).toNat =
    s.err.toNat + 2 * s.phase.code.toNat + 16 * s.errCode.code.toNat + 256 * s.ver.toNat +
      4096 * s.maskId.toNat := by
  simp only [status, toNat_append_eq_add, BitVec.toNat_ofNat, BitVec.toNat_ofBool]
  omega

/-- Settles O19: the number of STATUS is the sum of its fields at their places. -/
theorem statusLayout : Obligations.StatusLayout :=
  ⟨status_toNat, fun _ => ⟨rfl, rfl⟩, by decide, by decide⟩

/-! PHASE -/

/-- The phase after an issued word that leaves ERR set where it was clear: a fault changes no phase. -/
theorem issue_fault_phase {w : Word} (hs : s.err = false) (h : issue w s = .next t)
    (ht : t.err = true) : t.phase = s.phase := by
  obtain rfl | ⟨i, -, hi⟩ := issue_cases h
  · rw [rejectWord_ok w hs, raise_phase]
  · obtain ⟨-, rfl⟩ | ⟨c, -, -, rfl⟩ | ⟨-, rfl⟩ := exec_cases hi
    · rfl
    · rfl
    · simp [effectOf_err_eq_false i hs] at ht

/-- Settles O12: by the outcomes of each command, ignored, faulting or having its effect. -/
theorem phaseTransitions : Obligations.PhaseTransitions := by
  refine ⟨by decide, rfl, fun i s t h => ?_, fun s t m h ht => ?_, fun s t h ht => ?_,
    fun s t l h ht => ?_, fun w s t => issue_fault_phase⟩
  · cases i with
    | reset => cases h; rfl
    | mxBuild | mxPlace | mkSel | fmtPut => exact exec_phase rfl h
    | _ => exact exec_phase_eq rfl h
  · exact phase_eq_of_safeCommand rfl (exec_runs rfl h ht)
  · exact phase_eq_of_safeCommand rfl (exec_runs rfl h ht)
  · exact phase_eq_of_safeCommand rfl (exec_runs rfl h ht)

/-! The error registers and the penalty sum -/

theorem errorInv_raise {c : ErrCode} (hc : c ≠ .noError) (w : Word) (s : State) :
    ErrorInv (raise c w s) :=
  ⟨fun h => by simp at h, fun _ => hc⟩

theorem errorInv_effectOf (i : Instr) (h : ErrorInv s) : ErrorInv (effectOf i s) := by
  obtain ⟨he, hc, hi⟩ | ⟨he, hc, hi⟩ := effectOf_errorRegisters i s
  · exact ⟨fun _ => ⟨hc, hi⟩, fun ht => by simp [he] at ht⟩
  · simpa only [ErrorInv, he, hc, hi] using h

/-- PENT is latched with the four penalties (R180, R181). -/
theorem penaltySumInv_latchScore (c : Score) (s : State) : PenaltySumInv (latchScore c s) := by
  simp [PenaltySumInv, Score.total, BitVec.ofNat_add]

theorem penaltySumInv_effectOf (i : Instr) (h : PenaltySumInv s) : PenaltySumInv (effectOf i s) := by
  cases i with
  | reset | mxBuild => simp [PenaltySumInv, effectOf, buildMatrix, State.reset]
  | mkScore p => exact penaltySumInv_latchScore (score p s) s
  | mkSel => exact penaltySumInv_latchScore _ _
  | rsEnc k e => simpa [PenaltySumInv, effectOf, encodeBlock] using h
  | _ => exact h

/-- Settles O13: every fault has a code, and the penalties are latched together with their sum. -/
theorem errorRegistersAndPenaltySumStayConsistent :
    Obligations.ErrorRegistersAndPenaltySumStayConsistent := fun _ _ he hp h =>
  ⟨step_keeps (fun _ _ hs => hs) (fun _ w s hc _ => errorInv_raise hc w s)
      (fun i _ _ => errorInv_effectOf i) h he,
    step_keeps (fun _ _ hs => hs) (fun _ _ _ _ hs => hs) (fun i _ _ => penaltySumInv_effectOf i) h hp⟩

/-! The generator file -/

/-- A list padded to n entries. -/
theorem padVector_toList_of_length_le {α : Type} {n : Nat} (xs : List α) (d : α)
    (h : xs.length ≤ n) : (padVector n xs d).toList = xs ++ List.replicate (n - xs.length) d := by
  apply List.ext_getElem
  · simp; omega
  · intro j h₁ h₂
    simp [List.getElem_append, List.getD_eq_getElem?_getD]
    split <;> simp [*]

theorem generatorInv_loadG {e : Nat} (h₁ : 1 ≤ e) (h₂ : e ≤ 20) (s : State) :
    GeneratorInv (loadG e (genPoly e) s) := by
  have he : (BitVec.ofNat 5 e).toNat = e := by simp; omega
  have h0 : BitVec.ofNat 5 e ≠ 0 := fun h => by simp [h] at he; omega
  have hg := padVector_toList_of_length_le (n := 21) (genPoly e) 0 (by rw [genPoly_length]; omega)
  rw [genPoly_length, show 21 - (e + 1) = 20 - e by omega] at hg
  refine ⟨by simpa [he] using h₂, ?_⟩
  rw [loadG_g, loadG_ge, if_neg h0, he, hg]

theorem generatorInv_congr (hg : t.g = s.g) (he : t.ge = s.ge) (h : GeneratorInv s) :
    GeneratorInv t := by
  simpa only [GeneratorInv, hg, he] using h

theorem generatorInv_reset : GeneratorInv State.reset := ⟨by decide, by decide⟩

theorem generatorInv_effectOf (i : Instr) (hrun : executesInError i = true ∨ safeCommand i s = true)
    (h : GeneratorInv s) : GeneratorInv (effectOf i s) := by
  cases i with
  | reset => exact generatorInv_reset
  | rsGen e =>
    obtain ⟨-, -, he⟩ := safeCommand_iff.mp (safeCommand_of_runs rfl hrun)
    have he : ¬ (e = 0 ∨ e > 20) := by simpa [operandError] using he
    exact generatorInv_congr (by simp [effectOf]) (by simp [effectOf])
      (generatorInv_loadG (e := e) (by omega) (by omega) s)
  | rsEnc k e =>
    obtain ⟨-, -, he⟩ := safeCommand_iff.mp (safeCommand_of_runs rfl hrun)
    have he : ¬ (e = 0 ∨ e > 20 ∨ k + e > 100) := by simpa [operandError] using he
    exact generatorInv_congr (by simp [effectOf, encodeBlock]) (by simp [effectOf, encodeBlock])
      (generatorInv_loadG (e := e) (by omega) (by omega) s)
  | mkSel => exact generatorInv_congr (by simp [effectOf, selectMask]) (by simp [effectOf, selectMask]) h
  | _ => exact h

/-- Settles O37: G and GE are loaded together, by RS.GEN and RS.ENC with a legal e, and cleared by RESET. -/
theorem generatorFileStaysConsistent : Obligations.GeneratorFileStaysConsistent := fun _ _ hs h =>
  step_keeps (fun _ _ hs => hs) (fun _ _ _ _ hs => hs) (fun i _ => generatorInv_effectOf i) h hs

end Sys2Proof.Machine
end

section
/-! PROOFS. The grids that the pipeline commands write: folds of writes (R141, R160, R171, R191), the function patterns
(R30, R32) and the cells of the traversal (R161). -/

namespace Sys2Proof.Machine

/-! Folds of writes -/

/-- A fold over a list with `b` in it reaches what the step at `b` establishes and every step keeps. -/
theorem foldl_establishes {α β : Type} {P Q : α → Prop} {f : α → β → α} {l : List β} {b : β} {a : α}
    (hb : b ∈ l) (hQ : ∀ a, Q a → ∀ c ∈ l, Q (f a c)) (hbP : ∀ a, Q a → P (f a b))
    (hP : ∀ a, Q a → P a → ∀ c ∈ l, P (f a c)) (ha : Q a) : P (l.foldl f a) := by
  obtain ⟨l₁, l₂, rfl⟩ := List.append_of_mem hb
  rw [List.foldl_append, List.foldl_cons]
  have h₁ : Q (l₁.foldl f a) := List.foldlRecOn l₁ f ha fun a h c hc => hQ a h c (by simp [hc])
  have h₂ : Q (f (l₁.foldl f a) b) ∧ P (f (l₁.foldl f a) b) := ⟨hQ _ h₁ b (by simp), hbP _ h₁⟩
  exact (List.foldlRecOn (motive := fun a => Q a ∧ P a) l₂ f h₂ fun a h c hc =>
    ⟨hQ a h.1 c (by simp [hc]), hP a h.1 h.2 c (by simp [hc])⟩).2

/-! Module values -/

@[simp] theorem QrModule.ofBit_ne_unset (b : Bool) : QrModule.ofBit b ≠ .unset := by
  cases b <;> simp [QrModule.ofBit]

theorem finderModule_ne_unset (dx dy : Nat) : finderModule dx dy ≠ .unset := by
  unfold finderModule
  split <;> simp

theorem alignModule_ne_unset (dx dy : Nat) : alignModule dx dy ≠ .unset := by
  unfold alignModule
  split <;> simp

/-! Cells of a grid -/

theorem Grid.get?_fill {α : Type} (n : Nat) (v : α) (x y : Nat) :
    (Grid.fill n v).get? x y = if x < n ∧ y < n then some v else none := by
  unfold Grid.get? Grid.fill
  by_cases hy : y < n <;> by_cases hx : x < n <;> simp [hx, hy]

/-- A write of a value at a cell of the grid is read back. -/
theorem Grid.get?_set_of_lt {α : Type} {n x y : Nat} {m : Grid α} (h : m.wf n = true) (hx : x < n)
    (hy : y < n) (v : α) : (m.set x y v).get? x y = some v := by
  obtain ⟨u, hu⟩ := Option.isSome_iff_exists.mp ((Grid.get?_isSome h x y).mpr ⟨hx, hy⟩)
  exact Grid.get?_set_same v hu

/-- A write of a value other than Unset leaves its cell set. -/
theorem Grid.get?_set_same_ne_unset (m : Grid QrModule) (x y : Nat) {v : QrModule} (hv : v ≠ .unset) :
    (m.set x y v).get? x y ≠ some .unset := by
  simp [Grid.get?_set, hv]

/-- A write of a value other than Unset unsets no cell. -/
theorem Grid.get?_set_ne_unset {m : Grid QrModule} {x' y' : Nat} (x y : Nat) {v : QrModule}
    (hv : v ≠ .unset) (h : m.get? x' y' ≠ some .unset) : (m.set x y v).get? x' y' ≠ some .unset := by
  rw [Grid.get?_set]
  split <;> simp [hv, h]

/-- Writing data modules unsets no cell (R160, R171). -/
theorem writeEntries_ne_unset (es : List Entry) {m : Grid QrModule} {x y : Nat}
    (h : m.get? x y ≠ some .unset) : (writeEntries es m).get? x y ≠ some .unset :=
  List.foldlRecOn (motive := fun m : Grid QrModule => m.get? x y ≠ some .unset) es _ h fun _ h _ _ =>
    Grid.get?_set_ne_unset _ _ (QrModule.ofBit_ne_unset _) h

/-- A data module that is written is set (R160). -/
theorem writeEntries_mem_ne_unset {es : List Entry} {e : Entry} (he : e ∈ es) (m : Grid QrModule) :
    (writeEntries es m).get? e.x e.y ≠ some .unset :=
  foldl_establishes (P := fun m : Grid QrModule => m.get? e.x e.y ≠ some .unset) (Q := fun _ => True) he
    (fun _ _ _ _ => trivial)
    (fun m _ => Grid.get?_set_same_ne_unset m _ _ (QrModule.ofBit_ne_unset _))
    (fun _ _ h _ _ => Grid.get?_set_ne_unset _ _ (QrModule.ofBit_ne_unset _) h) trivial

/-- Writing the format strips unsets no cell (R191). -/
theorem fmtWrite_ne_unset (n : Nat) (w : BitVec 15) {m : Grid QrModule} {x y : Nat}
    (h : m.get? x y ≠ some .unset) : (fmtWrite n w m).get? x y ≠ some .unset :=
  List.foldlRecOn (motive := fun m : Grid QrModule => m.get? x y ≠ some .unset) _ _ h fun _ h _ _ =>
    Grid.get?_set_ne_unset _ _ (QrModule.ofBit_ne_unset _)
      (Grid.get?_set_ne_unset _ _ (QrModule.ofBit_ne_unset _) h)

/-! The two grids of MX.BUILD fit together -/

/-- Both grids are n x n, and a cell is Unset exactly where it is unreserved (R30, R32). -/
structure Canvas.Fits (n : Nat) (c : Canvas) : Prop where
  mat_wf : c.mat.wf n = true
  rsv_wf : c.rsv.wf n = true
  unset_iff : ∀ x y, c.mat.get? x y = some .unset ↔ c.rsv.get? x y = some false

section Patterns

variable {n : Nat} {c : Canvas}

theorem Canvas.fits_fresh (n : Nat) : (Canvas.fresh n).Fits n where
  mat_wf := Grid.wf_fill n _
  rsv_wf := Grid.wf_fill n _
  unset_iff x y := by simp [Canvas.fresh, Grid.get?_fill]

theorem Canvas.Fits.put (h : c.Fits n) (x y : Nat) {v : QrModule} (hv : v ≠ .unset) :
    (c.put x y v).Fits n where
  mat_wf := Grid.wf_set _ _ _ h.mat_wf
  rsv_wf := Grid.wf_set _ _ _ h.rsv_wf
  unset_iff x' y' := by
    simp only [Canvas.put, Grid.get?_set]
    split
    · simp [hv]
    · exact h.unset_iff x' y'

/-- A border cell is Light or already set before it is reserved. -/
theorem Canvas.Fits.putBorder (h : c.Fits n) (x y : Nat) : (c.putBorder x y).Fits n := by
  unfold Canvas.putBorder
  split
  case isTrue => exact h.put x y (by simp)
  case isFalse hset =>
    refine ⟨h.mat_wf, Grid.wf_set _ _ _ h.rsv_wf, fun x' y' => ?_⟩
    rw [Grid.get?_set]
    split
    case isTrue he =>
      obtain ⟨rfl, rfl⟩ := he
      simp [hset]
    case isFalse => exact h.unset_iff x' y'

/-- A fold of steps that each keep the fit keeps it. -/
theorem Canvas.Fits.foldl {β : Type} {f : Canvas → β → Canvas} (hf : ∀ c b, c.Fits n → (f c b).Fits n)
    (l : List β) (h : c.Fits n) : (l.foldl f c).Fits n :=
  List.foldlRecOn l f h fun c h b _ => hf c b h

theorem Canvas.Fits.placeFinderSquare (h : c.Fits n) (ox oy : Nat) :
    (placeFinderSquare ox oy c).Fits n :=
  h.foldl (fun _ _ h => h.put _ _ (finderModule_ne_unset _ _)) _

theorem Canvas.Fits.placeFinderBorder (h : c.Fits n) (k ox oy : Nat) :
    (placeFinderBorder k ox oy c).Fits n :=
  h.foldl (fun c d h => by
    split
    · exact h.putBorder _ _
    · exact h) _

theorem Canvas.Fits.placeFinders (h : c.Fits n) (k : Nat) : (placeFinders k c).Fits n :=
  h.foldl (fun _ _ h => (h.placeFinderSquare _ _).placeFinderBorder _ _ _) _

theorem Canvas.Fits.placeTiming (h : c.Fits n) (k : Nat) : (placeTiming k c).Fits n :=
  h.foldl (fun _ _ h =>
    (h.put _ _ (QrModule.ofBit_ne_unset _)).put _ _ (QrModule.ofBit_ne_unset _)) _

theorem Canvas.Fits.placeAlignment (h : c.Fits n) (cx cy : Nat) : (placeAlignment cx cy c).Fits n := by
  unfold Machine.placeAlignment
  split
  · exact h
  · exact h.foldl (fun _ _ h => h.put _ _ (alignModule_ne_unset _ _)) _

theorem Canvas.Fits.placeAlignments (h : c.Fits n) (v : Nat) : (placeAlignments v c).Fits n :=
  h.foldl (fun _ _ h => h.foldl (fun _ _ h => h.placeAlignment _ _) _) _

theorem Canvas.Fits.reserveFormat (h : c.Fits n) (k : Nat) : (reserveFormat k c).Fits n :=
  h.foldl (fun _ _ h => h.put _ _ (by simp)) _

end Patterns

/-- The function patterns of a version, placed in the order of R141, fit together. -/
theorem functionPatterns_fits (v : Nat) : (functionPatterns v).Fits (Config.sizeOf v) :=
  (((((Canvas.fits_fresh _).placeFinders _).placeTiming _).placeAlignments _).put _ _
    (by simp)).reserveFormat _

/-! The free cells -/

theorem mem_pairCells {n : Nat} {pair : Nat × Bool} {x y : Nat} (hx : x = pair.1 ∨ x = pair.1 - 1)
    (hy : y < n) : (x, y) ∈ pairCells n pair := by
  obtain ⟨r, up⟩ := pair
  refine List.mem_flatMap.mpr ⟨if up then n - 1 - y else y, ?_, ?_⟩
  · cases up <;> simp <;> omega
  · have : n - 1 - (n - 1 - y) = y := by omega
    cases up <;> simpa [this] using hx

/-- The column pairs of each version reach every column but the timing column 6 (R160). -/
theorem columnPairs_cover : ∀ v ∈ [1, 2, 3, 4], ∀ x < Config.sizeOf v, x ≠ 6 →
    ∃ pair ∈ columnPairs (Config.sizeOf v) (Config.sizeOf v - 1) true, x = pair.1 ∨ x = pair.1 - 1 := by
  decide

/-- Column 6 is reserved from top to bottom, so the traversal may leave it out (R161). -/
theorem functionPatterns_column_six : ∀ v ∈ [1, 2, 3, 4], ∀ y < Config.sizeOf v,
    (functionPatterns v).rsv.get? 6 y = some true := by
  have h : ∀ v ∈ [1, 2, 3, 4], settleCanvas (functionPatterns v)
      (fun c => decide (∀ y < Config.sizeOf v, c.rsv.get? 6 y = some true)) = true := by
    decide +kernel
  intro v hv
  simpa only [settleCanvas_eq, decide_eq_true_eq] using h v hv

/-- Every unreserved cell of the grid is among the free cells (R160, R161). -/
theorem mem_freeCells {v x y : Nat} (hv : 1 ≤ v ∧ v ≤ 4) (hx : x < Config.sizeOf v)
    (hy : y < Config.sizeOf v) (h : (functionPatterns v).rsv.get? x y = some false) :
    (x, y) ∈ freeCells (Config.sizeOf v) (functionPatterns v).rsv := by
  have hv : v ∈ [1, 2, 3, 4] := by simp; omega
  have hx6 : x ≠ 6 := by
    rintro rfl
    simp [functionPatterns_column_six v hv y hy] at h
  obtain ⟨pair, hp, hxp⟩ := columnPairs_cover v hv x hx hx6
  exact List.mem_filter.mpr ⟨List.mem_flatMap.mpr ⟨pair, hp, mem_pairCells hxp hy⟩, by simp [h]⟩

/-- The entries MX.PLACE makes lie at the cells it was given, in their order (R160). -/
theorem assignBits_cells (ps : List (Nat × Nat)) : ∀ bs : List Bool,
    (assignBits ps bs).map (fun e => (e.x, e.y)) = ps := by
  induction ps with
  | nil => intro bs; rfl
  | cons p ps ih => intro bs; cases bs <;> simp [assignBits, ih]

/-! The format strips -/

/-- The first strip lies in the top left corner (R192). -/
theorem fmtCells1_lt : ∀ i < 15,
    (fmtCells1 Config.fmt1Map i).1 < 9 ∧ (fmtCells1 Config.fmt1Map i).2 < 9 := by
  decide

theorem fmtCells1_inj : ∀ i < 15, ∀ j < 15,
    fmtCells1 Config.fmt1Map i = fmtCells1 Config.fmt1Map j → i = j := by
  decide

/-- The second strip lies in the grid, outside that corner (R193). -/
theorem fmtCells2_lt {n i : Nat} (hn : 17 ≤ n) (hi : i < 15) :
    (fmtCells2 n i).1 < n ∧ (fmtCells2 n i).2 < n ∧ (9 ≤ (fmtCells2 n i).1 ∨ 9 ≤ (fmtCells2 n i).2) := by
  unfold fmtCells2
  split <;> simp only <;> omega

theorem fmtCells2_inj {n i j : Nat} (hn : 17 ≤ n) (hi : i < 15) (hj : j < 15)
    (h : fmtCells2 n i = fmtCells2 n j) : i = j := by
  unfold fmtCells2 at h
  split at h <;> split at h <;> rw [Prod.mk.injEq] at h <;> omega

/-- The two strips are disjoint (R191). -/
theorem fmtCells1_ne_fmtCells2 {n i j : Nat} (hn : 17 ≤ n) (hi : i < 15) (hj : j < 15) :
    fmtCells1 Config.fmt1Map i ≠ fmtCells2 n j := by
  intro h
  have h1 := fmtCells1_lt i hi
  have h2 := fmtCells2_lt hn hj
  rw [← h] at h2
  omega

/-- One round of FMTWRITE (R191): bit `i` of `w` to its cell in either strip. -/
def writeFmtBit (n : Nat) (w : BitVec 15) (m : Grid QrModule) (i : Nat) : Grid QrModule :=
  (m.set (fmtCells1 Config.fmt1Map i).1 (fmtCells1 Config.fmt1Map i).2 (QrModule.ofBit (w.getLsbD i))).set
    (fmtCells2 n i).1 (fmtCells2 n i).2 (QrModule.ofBit (w.getLsbD i))

theorem fmtWrite_eq_foldl (n : Nat) (w : BitVec 15) (m : Grid QrModule) :
    fmtWrite n w m = (List.range 15).foldl (writeFmtBit n w) m := rfl

section FormatBits

variable {n i : Nat} {m : Grid QrModule} (w : BitVec 15)

theorem writeFmtBit_wf (h : m.wf n = true) (i : Nat) : (writeFmtBit n w m i).wf n = true :=
  Grid.wf_set _ _ _ (Grid.wf_set _ _ _ h)

theorem writeFmtBit_get?_other {x y : Nat} (h1 : fmtCells1 Config.fmt1Map i ≠ (x, y))
    (h2 : fmtCells2 n i ≠ (x, y)) : (writeFmtBit n w m i).get? x y = m.get? x y :=
  (Grid.get?_set_other _ h2).trans (Grid.get?_set_other _ h1)

/-- The cells of bit `i` in both strips of `m` hold bit `i` of `w`. -/
def HoldsFmtBit (n : Nat) (w : BitVec 15) (i : Nat) (m : Grid QrModule) : Prop :=
  m.get? (fmtCells1 Config.fmt1Map i).1 (fmtCells1 Config.fmt1Map i).2 =
      some (QrModule.ofBit (w.getLsbD i)) ∧
    m.get? (fmtCells2 n i).1 (fmtCells2 n i).2 = some (QrModule.ofBit (w.getLsbD i))

theorem holdsFmtBit_writeFmtBit (hn : 17 ≤ n) (hi : i < 15) (h : m.wf n = true) :
    HoldsFmtBit n w i (writeFmtBit n w m i) := by
  have h1 := fmtCells1_lt i hi
  obtain ⟨hx, hy, -⟩ := fmtCells2_lt hn hi
  exact ⟨(Grid.get?_set_other _ (fmtCells1_ne_fmtCells2 hn hi hi).symm).trans
      (Grid.get?_set_of_lt h (by omega) (by omega) _),
    Grid.get?_set_of_lt (Grid.wf_set _ _ _ h) hx hy _⟩

/-- After FMTWRITE both strips read back as the word (R191). -/
theorem holdsFmtBit_fmtWrite (hn : 17 ≤ n) (hm : m.wf n = true) (hi : i < 15) :
    HoldsFmtBit n w i (fmtWrite n w m) := by
  rw [fmtWrite_eq_foldl]
  refine foldl_establishes (Q := fun m : Grid QrModule => m.wf n = true) (List.mem_range.mpr hi)
    (fun m h j _ => writeFmtBit_wf w h j) (fun m h => holdsFmtBit_writeFmtBit w hn hi h)
    (fun m h hold j hj => ?_) hm
  by_cases hij : j = i
  · subst hij
    exact holdsFmtBit_writeFmtBit w hn hi h
  · have hj : j < 15 := List.mem_range.mp hj
    obtain ⟨hold1, hold2⟩ := hold
    exact ⟨(writeFmtBit_get?_other w (fun he => hij (fmtCells1_inj j hj i hi he))
        (fmtCells1_ne_fmtCells2 hn hi hj).symm).trans hold1,
      (writeFmtBit_get?_other w (fmtCells1_ne_fmtCells2 hn hj hi)
        fun he => hij (fmtCells2_inj hn hj hi he)).trans hold2⟩

end FormatBits

end Sys2Proof.Machine
end

section
/-! PROOFS. The invariants of the matrix pipeline (R24, R30 to R33, R37): what the four pipeline commands write, and
that the items fit together afterwards. -/

namespace Sys2Proof.Machine

variable {s t : State}

/-! What the pipeline commands write, and what they leave -/

@[simp] theorem buildMatrix_phase (v : Nat) (s : State) : (buildMatrix v s).phase = .built := rfl
@[simp] theorem buildMatrix_ver (v : Nat) (s : State) : (buildMatrix v s).ver = BitVec.ofNat 3 v := rfl
@[simp] theorem buildMatrix_size (v : Nat) (s : State) :
    (buildMatrix v s).size = BitVec.ofNat 6 (Config.sizeOf v) := rfl
@[simp] theorem buildMatrix_mat (v : Nat) (s : State) :
    (buildMatrix v s).mat = (functionPatterns v).mat := rfl
@[simp] theorem buildMatrix_rsv (v : Nat) (s : State) :
    (buildMatrix v s).rsv = (functionPatterns v).rsv := rfl
@[simp] theorem buildMatrix_dlist (v : Nat) (s : State) : (buildMatrix v s).dlist = [] := rfl
@[simp] theorem buildMatrix_fmtReg (v : Nat) (s : State) : (buildMatrix v s).fmtReg = 0 := rfl

@[simp] theorem placeData_phase (m : Nat) (s : State) : (placeData m s).phase = .placed := rfl
@[simp] theorem placeData_ver (m : Nat) (s : State) : (placeData m s).ver = s.ver := rfl
@[simp] theorem placeData_size (m : Nat) (s : State) : (placeData m s).size = s.size := rfl
@[simp] theorem placeData_rsv (m : Nat) (s : State) : (placeData m s).rsv = s.rsv := rfl
@[simp] theorem placeData_fmtReg (m : Nat) (s : State) : (placeData m s).fmtReg = s.fmtReg := rfl
@[simp] theorem placeData_maskId (m : Nat) (s : State) : (placeData m s).maskId = s.maskId := rfl
@[simp] theorem placeData_bestPen (m : Nat) (s : State) : (placeData m s).bestPen = s.bestPen := rfl
@[simp] theorem placeData_cand (m : Nat) (s : State) : (placeData m s).cand = s.cand := rfl
theorem placeData_mat (m : Nat) (s : State) : (placeData m s).mat =
    writeEntries (assignBits (freeCells s.size.toNat s.rsv) (streamBits (cwStream m s))) s.mat := rfl
theorem placeData_dlist (m : Nat) (s : State) : (placeData m s).dlist =
    s.dlist ++ assignBits (freeCells s.size.toNat s.rsv) (streamBits (cwStream m s)) := rfl

@[simp] theorem selectMask_phase (s : State) : (selectMask s).phase = .masked := rfl
@[simp] theorem selectMask_ver (s : State) : (selectMask s).ver = s.ver := by simp [selectMask]
@[simp] theorem selectMask_size (s : State) : (selectMask s).size = s.size := by simp [selectMask]
@[simp] theorem selectMask_mat (s : State) :
    (selectMask s).mat = candidate (selectBest (allScores s)).1 s := rfl
@[simp] theorem selectMask_rsv (s : State) : (selectMask s).rsv = s.rsv := by simp [selectMask]
@[simp] theorem selectMask_dlist (s : State) : (selectMask s).dlist = s.dlist := by simp [selectMask]
@[simp] theorem selectMask_fmtReg (s : State) : (selectMask s).fmtReg = s.fmtReg := by simp [selectMask]

@[simp] theorem putFormat_phase (l : Nat) (s : State) : (putFormat l s).phase = .done := rfl
@[simp] theorem putFormat_ver (l : Nat) (s : State) : (putFormat l s).ver = s.ver := rfl
@[simp] theorem putFormat_size (l : Nat) (s : State) : (putFormat l s).size = s.size := rfl
@[simp] theorem putFormat_mat (l : Nat) (s : State) :
    (putFormat l s).mat = fmtWrite s.size.toNat (bch15 (formatValue l s.maskId)) s.mat := by
  simp only [putFormat]
@[simp] theorem putFormat_rsv (l : Nat) (s : State) : (putFormat l s).rsv = s.rsv := rfl
@[simp] theorem putFormat_dlist (l : Nat) (s : State) : (putFormat l s).dlist = s.dlist := rfl
@[simp] theorem putFormat_fmtReg (l : Nat) (s : State) :
    (putFormat l s).fmtReg = bch15 (formatValue l s.maskId) := by
  simp only [putFormat]
@[simp] theorem putFormat_maskId (l : Nat) (s : State) : (putFormat l s).maskId = s.maskId := rfl
@[simp] theorem putFormat_bestPen (l : Nat) (s : State) : (putFormat l s).bestPen = s.bestPen := rfl
@[simp] theorem putFormat_cand (l : Nat) (s : State) : (putFormat l s).cand = s.cand := rfl

/-! The geometry -/

/-- The geometry of a state with a matrix, item by item. -/
structure Drawn (s : State) : Prop where
  version : 1 ≤ s.ver.toNat ∧ s.ver.toNat ≤ 4
  size : s.size.toNat = Config.sizeOf s.ver.toNat
  mat_wf : s.mat.wf s.size.toNat = true
  rsv : s.rsv = (functionPatterns s.ver.toNat).rsv
  noData : hasData s = false → s.dlist = []
  data : hasData s = true → dlistCells s = freeCells s.size.toNat s.rsv

/-- Outside IDLE the geometry invariant is that of a drawn matrix. -/
theorem geometryInv_iff_drawn (hp : s.phase ≠ .idle) : GeometryInv s ↔ Drawn s := by
  have hver : s.ver ≠ 0 ↔ 1 ≤ s.ver.toNat := by
    rw [Nat.one_le_iff_ne_zero, ne_eq, ← BitVec.toNat_inj]
    rfl
  constructor
  · rintro ⟨⟨hv, hle, hsize⟩, hmat, hrsv, hno, hdata⟩
    have hv0 : s.ver ≠ 0 := fun h => hp (hv.mpr h)
    rw [if_neg hv0] at hsize
    rw [if_neg hp] at hrsv
    exact ⟨⟨hver.mp hv0, hle⟩, hsize, hmat, hrsv, hno, hdata⟩
  · rintro ⟨⟨hpos, hle⟩, hsize, hmat, hrsv, hno, hdata⟩
    have hv0 : s.ver ≠ 0 := hver.mpr hpos
    refine ⟨⟨iff_of_false hp hv0, hle, ?_⟩, hmat, ?_, hno, hdata⟩
    · rw [if_neg hv0, hsize, Config.sizeOf]
    · rw [if_neg hp, hrsv]

theorem GeometryInv.drawn (h : GeometryInv s) (hp : s.phase ≠ .idle) : Drawn s :=
  (geometryInv_iff_drawn hp).mp h

theorem Drawn.size_bounds (h : Drawn s) : 21 ≤ s.size.toNat ∧ s.size.toNat ≤ 33 := by
  obtain ⟨hv, hle⟩ := h.version
  rw [h.size, Config.sizeOf]
  omega

theorem SameMatrix.geometryInv (h : SameMatrix s t) (hs : GeometryInv s) : GeometryInv t := by
  simpa only [GeometryInv, VersionInv, hasData, dlistCells, h.phase, h.ver, h.size, h.mat, h.rsv,
    h.dlist] using hs

theorem geometryInv_reset : GeometryInv State.reset :=
  ⟨⟨by decide, by decide, rfl⟩, rfl, rfl, fun _ => rfl, fun h => by cases h⟩

/-- The version and the size that MX.BUILD sets, as numbers (R140). -/
theorem buildMatrix_version {v : Nat} (h₂ : v ≤ 4) (s : State) :
    (buildMatrix v s).ver.toNat = v ∧ (buildMatrix v s).size.toNat = Config.sizeOf v := by
  simp [Config.sizeOf]
  omega

theorem drawn_buildMatrix {v : Nat} (h₁ : 1 ≤ v) (h₂ : v ≤ 4) (s : State) :
    Drawn (buildMatrix v s) := by
  obtain ⟨hv, hsize⟩ := buildMatrix_version h₂ s
  exact
    { version := by rw [hv]; exact ⟨h₁, h₂⟩
      size := by rw [hv, hsize]
      mat_wf := by rw [hsize]; exact (functionPatterns_fits v).mat_wf
      rsv := by rw [hv, buildMatrix_rsv]
      noData := fun _ => buildMatrix_dlist v s
      data := fun h => by simp [hasData] at h }

theorem Drawn.placeData (m : Nat) (h : Drawn s) (hp : s.phase = .built) : Drawn (placeData m s) where
  version := h.version
  size := h.size
  mat_wf := writeEntries_wf _ h.mat_wf
  rsv := h.rsv
  noData hd := by simp [hasData] at hd
  data _ := by
    have hs : s.dlist = [] := h.noData (by simp [hasData, hp])
    simp [dlistCells, placeData_dlist, hs, assignBits_cells]

theorem Drawn.selectMask (h : Drawn s) (hp : s.phase = .placed) : Drawn (selectMask s) where
  version := by simpa using h.version
  size := by simpa using h.size
  mat_wf := by simpa using candidate_wf _ h.mat_wf
  rsv := by simpa using h.rsv
  noData hd := by simp [hasData] at hd
  data _ := by simpa [dlistCells] using h.data (by simp [hasData, hp])

theorem Drawn.putFormat (h : Drawn s) (hp : s.phase = .masked) (l : Nat) : Drawn (putFormat l s) where
  version := h.version
  size := h.size
  mat_wf := by simpa using fmtWrite_wf _ _ h.mat_wf
  rsv := h.rsv
  noData hd := by simp [hasData] at hd
  data _ := h.data (by simp [hasData, hp])

theorem geometryInv_buildMatrix {v : Nat} (h₁ : 1 ≤ v) (h₂ : v ≤ 4) (s : State) :
    GeometryInv (buildMatrix v s) :=
  (geometryInv_iff_drawn (by simp)).mpr (drawn_buildMatrix h₁ h₂ s)

theorem geometryInv_placeData (m : Nat) (hp : s.phase = .built) (h : Drawn s) :
    GeometryInv (placeData m s) :=
  (geometryInv_iff_drawn (by simp)).mpr (h.placeData m hp)

theorem geometryInv_selectMask (hp : s.phase = .placed) (h : Drawn s) : GeometryInv (selectMask s) :=
  (geometryInv_iff_drawn (by simp)).mpr (h.selectMask hp)

theorem geometryInv_putFormat (hp : s.phase = .masked) (h : Drawn s) (l : Nat) :
    GeometryInv (putFormat l s) :=
  (geometryInv_iff_drawn (by simp)).mpr (h.putFormat hp l)

/-- Settles O53: MX.BUILD draws a fresh matrix, and each later pipeline command keeps a drawn matrix drawn. -/
theorem geometryIsKept : Obligations.GeometryIsKept := fun _ _ hs h =>
  step_keeps_matrix (P := GeometryInv) (fun _ _ hsame => hsame.geometryInv) geometryInv_reset
    (fun _ s h₁ h₂ => geometryInv_buildMatrix h₁ h₂ s)
    (fun m _ hp hs => geometryInv_placeData m hp (hs.drawn (by simp [hp])))
    (fun _ hp hs => geometryInv_selectMask hp (hs.drawn (by simp [hp])))
    (fun _ hp hs => geometryInv_putFormat hp (hs.drawn (by simp [hp])) 1) h hs

/-- A property of the matrix items that the pipeline commands keep on a drawn matrix is kept, together with the
geometry, by every step. -/
theorem step_keeps_drawn {Q : State → Prop} (frame : ∀ s t, SameMatrix s t → Q s → Q t)
    (reset : Q State.reset)
    (build : ∀ v s, 1 ≤ v → v ≤ 4 → Q (buildMatrix v s))
    (place : ∀ m s, s.phase = .built → Drawn s → Q s → Q (placeData m s))
    (select : ∀ s, s.phase = .placed → Drawn s → Q s → Q (selectMask s))
    (format : ∀ s, s.phase = .masked → Drawn s → Q s → Q (putFormat 1 s))
    (h : step s = .next t) (hs : GeometryInv s ∧ Q s) : GeometryInv t ∧ Q t := by
  refine step_keeps_matrix (P := fun s => GeometryInv s ∧ Q s)
    (fun s t hsame hs => ⟨hsame.geometryInv hs.1, frame s t hsame hs.2⟩) ⟨geometryInv_reset, reset⟩
    (fun v s h₁ h₂ => ⟨geometryInv_buildMatrix h₁ h₂ s, build v s h₁ h₂⟩) ?_ ?_ ?_ h hs
  · rintro m s hp ⟨hg, hq⟩
    have hd := hg.drawn (by simp [hp])
    exact ⟨geometryInv_placeData m hp hd, place m s hp hd hq⟩
  · rintro s hp ⟨hg, hq⟩
    have hd := hg.drawn (by simp [hp])
    exact ⟨geometryInv_selectMask hp hd, select s hp hd hq⟩
  · rintro s hp ⟨hg, hq⟩
    have hd := hg.drawn (by simp [hp])
    exact ⟨geometryInv_putFormat hp hd 1, format s hp hd hq⟩

/-! No module is left Unset -/

theorem SameMatrix.moduleInv (h : SameMatrix s t) (hs : ModuleInv s) : ModuleInv t := by
  simpa only [ModuleInv, hasData, h.phase, h.size, h.mat, h.rsv] using hs

theorem moduleInv_buildMatrix {v : Nat} (s : State) : ModuleInv (buildMatrix v s) := fun x _ y _ =>
  ⟨fun _ => (functionPatterns_fits v).unset_iff x y, fun h => by simp [hasData] at h⟩

/-- A data cell is written, and a reserved one was set before (R30, R160). -/
theorem moduleInv_placeData (m : Nat) (hp : s.phase = .built) (hd : Drawn s) (hs : ModuleInv s) :
    ModuleInv (placeData m s) := fun x hx y hy => by
  refine ⟨fun h => by simp at h, fun _ => ?_⟩
  rw [placeData_size] at hx hy
  rw [placeData_mat]
  by_cases hr : s.rsv.get? x y = some false
  · have hfree : (x, y) ∈ freeCells s.size.toNat s.rsv := by
      rw [hd.size] at hx hy ⊢
      rw [hd.rsv] at hr ⊢
      exact mem_freeCells hd.version hx hy hr
    rw [← assignBits_cells (freeCells _ _) (streamBits (cwStream m s))] at hfree
    obtain ⟨e, he, hxy⟩ := List.mem_map.mp hfree
    obtain ⟨rfl, rfl⟩ := Prod.mk.inj hxy
    exact writeEntries_mem_ne_unset he s.mat
  · exact writeEntries_ne_unset _ (mt ((hs x hx y hy).1 hp).mp hr)

/-- From PLACED on no cell is Unset, so it is enough to unset none (R30). -/
theorem moduleInv_of_unsets_none (hd : hasData s = true) (hs : ModuleInv s) (hp : t.phase ≠ .built)
    (hsize : t.size = s.size)
    (hm : ∀ x y, s.mat.get? x y ≠ some .unset → t.mat.get? x y ≠ some .unset) : ModuleInv t :=
  fun x hx y hy => ⟨fun h => absurd h hp, fun _ => by
    rw [hsize] at hx hy
    exact hm x y ((hs x hx y hy).2 hd)⟩

theorem moduleInv_reset : ModuleInv State.reset := fun _ hx => absurd hx (Nat.not_lt_zero _)

/-- MK.SEL writes data modules (R171). -/
theorem moduleInv_selectMask (hp : s.phase = .placed) (hs : ModuleInv s) : ModuleInv (selectMask s) :=
  moduleInv_of_unsets_none (by simp [hasData, hp]) hs (by simp) (by simp) fun x y h => by
    rw [selectMask_mat]
    exact writeEntries_ne_unset _ h

/-- FMT.PUT writes bits (R191). -/
theorem moduleInv_putFormat (hp : s.phase = .masked) (hs : ModuleInv s) (l : Nat) :
    ModuleInv (putFormat l s) :=
  moduleInv_of_unsets_none (by simp [hasData, hp]) hs (by simp) (by simp) fun x y h => by
    rw [putFormat_mat]
    exact fmtWrite_ne_unset _ _ h

/-- Settles O54: MX.BUILD sets exactly the reserved cells, MX.PLACE the others, and nothing unsets a cell. -/
theorem noModuleIsLeftUnset : Obligations.NoModuleIsLeftUnset := fun _ _ hg hs h =>
  (step_keeps_drawn (Q := ModuleInv) (fun _ _ hsame => hsame.moduleInv) moduleInv_reset
    (fun _ s _ _ => moduleInv_buildMatrix s) (fun m _ => moduleInv_placeData m)
    (fun _ hp _ => moduleInv_selectMask hp) (fun _ hp _ hs => moduleInv_putFormat hp hs 1) h ⟨hg, hs⟩).2

/-! The format register and its two copies -/

theorem SameMatrix.formatInv (h : SameMatrix s t) (hs : FormatInv s) : FormatInv t := by
  simpa only [FormatInv, h.phase, h.size, h.mat, h.maskId, h.fmtReg] using hs

/-- Before DONE the format invariant says that FMTREG is 0 (R37). -/
theorem formatInv_of_fmtReg_eq_zero (hp : s.phase ≠ .done) (h : s.fmtReg = 0) : FormatInv s :=
  ⟨fun _ => h, fun hd => absurd hd hp⟩

/-- The five bits of level L and the mask (R195). -/
theorem formatValue_one (maskId : BitVec 3) : formatValue 1 maskId = 8#5 ||| maskId.setWidth 5 := rfl

theorem formatInv_putFormat (hd : Drawn s) : FormatInv (putFormat 1 s) := by
  have hn : 17 ≤ s.size.toNat := by have := hd.size_bounds; omega
  refine ⟨fun h => absurd (putFormat_phase 1 s) h, fun _ => ?_⟩
  rw [putFormat_fmtReg, putFormat_mat, putFormat_size, putFormat_maskId, formatValue_one]
  exact ⟨rfl, fun i hi => holdsFmtBit_fmtWrite _ hn hd.mat_wf hi⟩

/-- Settles O57: only FMT.PUT enters DONE, and no bit that FMTWRITE writes overwrites another. -/
theorem formatCopiesStayIdentical : Obligations.FormatCopiesStayIdentical := fun _ _ hg hs h =>
  (step_keeps_drawn (Q := FormatInv) (fun _ _ hsame => hsame.formatInv)
    (formatInv_of_fmtReg_eq_zero (by decide) rfl)
    (fun v s _ _ => formatInv_of_fmtReg_eq_zero (by simp) (buildMatrix_fmtReg v s))
    (fun _ _ hp _ hs => formatInv_of_fmtReg_eq_zero (by simp) (hs.1 (by simp [hp])))
    (fun _ hp _ hs => formatInv_of_fmtReg_eq_zero (by simp) (by simpa using hs.1 (by simp [hp])))
    (fun _ _ hd _ => formatInv_putFormat hd) h ⟨hg, hs⟩).2

end Sys2Proof.Machine
end

section
/-! PROOFS. The mask selection (R178) and its registers (R34, R36, R183): the scan commits the first least total, and
the totals fit their 32-bit registers. -/

namespace Sys2Proof.Machine

variable {s t : State}

/-! The scan -/

/-- `r` is the entry with the least total in `cs`, and every entry of a smaller id has a greater total (R178). -/
structure FirstLeast (r : Nat × Score) (cs : List (Nat × Score)) : Prop where
  mem : r ∈ cs
  least : ∀ c ∈ cs, r.2.total ≤ c.2.total
  first : ∀ c ∈ cs, c.1 < r.1 → r.2.total < c.2.total

/-- Over candidates in order of their ids the scan ends at the first least one. -/
theorem scanBest_firstLeast (cs : List (Nat × Score)) : ∀ best : Nat × Score,
    (best :: cs).Pairwise (fun a b => a.1 < b.1) → FirstLeast (scanBest best cs) (best :: cs) := by
  induction cs with
  | nil =>
    intro best _
    exact ⟨by simp [scanBest], by simp [scanBest], by simp [scanBest]⟩
  | cons c cs ih =>
    intro best hsorted
    obtain ⟨hbest, hc, hcs⟩ : (∀ a ∈ c :: cs, best.1 < a.1) ∧ (∀ a ∈ cs, c.1 < a.1) ∧
        cs.Pairwise (fun a b => a.1 < b.1) := by simpa using hsorted
    rw [scanBest]
    split
    case isTrue hlt =>
      obtain ⟨mem, least, first⟩ := ih c (List.pairwise_cons.mpr ⟨hc, hcs⟩)
      have hle := least c (by simp)
      refine ⟨List.mem_cons_of_mem _ mem, fun a ha => ?_, fun a ha hid => ?_⟩ <;>
        obtain rfl | ha := List.mem_cons.mp ha
      · omega
      · exact least a ha
      · omega
      · exact first a ha hid
    case isFalse hge =>
      obtain ⟨mem, least, first⟩ :=
        ih best (List.pairwise_cons.mpr ⟨fun a ha => hbest a (by simp [ha]), hcs⟩)
      have hle := least best (by simp)
      refine ⟨by simp at mem ⊢; tauto, fun a ha => ?_, fun a ha hid => ?_⟩ <;>
        obtain rfl | rfl | ha : a = best ∨ a = c ∨ a ∈ cs := by simpa using ha
      · exact hle
      · omega
      · exact least a (by simp [ha])
      · exact first a (by simp) hid
      · have := first best (by simp) ((hbest a (by simp)).trans hid)
        omega
      · exact first a (by simp [ha]) hid

/-- The candidates that the scan visits are the scores with their positions, in order. -/
theorem selectBest_firstLeast {scores : List Score} (h : scores ≠ []) :
    FirstLeast (selectBest scores) (scores.zipIdx.map fun c => (c.2, c.1)) := by
  have hsorted : (scores.zipIdx.map fun c => (c.2, c.1)).Pairwise (fun a b => a.1 < b.1) := by
    rw [List.pairwise_map, ← List.pairwise_map (f := Prod.snd) (R := (· < ·)), List.zipIdx_map_snd]
    exact List.pairwise_lt_range'
  unfold selectBest
  split
  case h_1 hnil => simp [h] at hnil
  case h_2 c cs hcons =>
    rw [hcons] at hsorted ⊢
    exact scanBest_firstLeast cs c hsorted

/-- The committed pattern is the least id whose total is the minimum of the eight (R178). -/
theorem selectBest_allScores (s : State) :
    (selectBest (allScores s)).1 < 8 ∧
    (selectBest (allScores s)).2 = score (selectBest (allScores s)).1 s ∧
    (∀ q < 8, (selectBest (allScores s)).2.total ≤ (score q s).total) ∧
    ∀ q < (selectBest (allScores s)).1, (selectBest (allScores s)).2.total < (score q s).total := by
  have hmem : ∀ c : Nat × Score, c ∈ (allScores s).zipIdx.map (fun c => (c.2, c.1)) ↔
      c.1 < 8 ∧ c.2 = score c.1 s := by
    rintro ⟨q, c⟩
    by_cases hq : q < 8
    · simp [List.mem_zipIdx_iff_getElem?, allScores, hq, eq_comm]
    · simp [List.mem_zipIdx_iff_getElem?, allScores, hq]
  obtain ⟨mem, least, first⟩ := selectBest_firstLeast (scores := allScores s) (by simp [allScores])
  obtain ⟨hlt, heq⟩ := (hmem _).mp mem
  exact ⟨hlt, heq, fun q hq => least (q, score q s) ((hmem _).mpr ⟨hq, rfl⟩),
    fun q hq => first (q, score q s) ((hmem _).mpr ⟨hq.trans hlt, rfl⟩) hq⟩

/-! Bounds of the penalties -/

/-- The runs of a line are disjoint stretches of it (R173). -/
theorem runPenalty_le_length (line : List QrModule) : runPenalty line ≤ line.length := by
  have h : ((line.splitBy fun a b => a == b).map List.length).sum = line.length := by
    rw [← List.length_flatten, List.flatten_splitBy]
  rw [← h]
  exact List.sum_le_sum fun run _ => by split <;> omega

theorem matchesAt_le (pattern line : List QrModule) : matchesAt pattern line ≤ line.length + 1 :=
  (List.length_filter_le _ _).trans (by simp)

theorem blocksInRows_le_length (r r' : List QrModule) : blocksInRows r r' ≤ r.length := by
  induction r generalizing r' with
  | nil => simp [blocksInRows]
  | cons a as ih =>
    match as, r' with
    | [], _ => simp [blocksInRows]
    | _ :: _, [] => simp [blocksInRows]
    | _ :: _, [_] => simp [blocksInRows]
    | a' :: as, b :: b' :: bs =>
      have := ih (b' :: bs)
      rw [blocksInRows]
      simp only [List.length_cons] at this ⊢
      split <;> omega

theorem blocks_le {n : Nat} (m : Grid QrModule) (h : ∀ row ∈ m, row.length = n) :
    blocks m ≤ m.length * n := by
  induction m with
  | nil => simp [blocks]
  | cons r rs ih =>
    have hrs := ih fun row hrow => h row (by simp [hrow])
    rw [List.length_cons, Nat.succ_mul]
    cases rs with
    | nil => simp [blocks]
    | cons r' rs =>
      have hr := blocksInRows_le_length r r'
      rw [h r (by simp)] at hr
      rw [blocks]
      omega

section Bounds

variable {n : Nat} {m : Grid QrModule}

/-- The lines of an n x n grid: 2n of them, of n cells each. -/
theorem gridLines_length (h : m.wf n = true) : (gridLines n m).length = 2 * n := by
  rw [Grid.wf_iff] at h
  simp [gridLines, columns, h.1]
  omega

theorem length_of_mem_gridLines (h : m.wf n = true) {line : List QrModule}
    (hl : line ∈ gridLines n m) : line.length = n := by
  rw [Grid.wf_iff] at h
  obtain hl | hl := List.mem_append.mp hl
  · exact h.2 line hl
  · obtain ⟨x, -, rfl⟩ := List.mem_map.mp hl
    simpa using h.1

/-- A sum over the lines of a grid, from a bound on each. -/
theorem sum_gridLines_le (h : m.wf n = true) {f : List QrModule → Nat} {k : Nat}
    (hf : ∀ line, line.length = n → f line ≤ k) : ((gridLines n m).map f).sum ≤ 2 * n * k := by
  have := List.sum_le_card_nsmul ((gridLines n m).map f) k fun v hv => by
    obtain ⟨line, hl, rfl⟩ := List.mem_map.mp hv
    exact hf line (length_of_mem_gridLines h hl)
  simpa [gridLines_length h] using this

theorem darkCount_le (h : m.wf n = true) : darkCount m ≤ n * n := by
  rw [Grid.wf_iff] at h
  have := List.sum_le_card_nsmul (m.map fun row => row.count QrModule.dark) n fun v hv => by
    obtain ⟨row, hr, rfl⟩ := List.mem_map.mp hv
    exact List.count_le_length.trans (h.2 row hr).le
  simpa [darkCount, h.1] using this

theorem balancePenalty_le (d t : Nat) : balancePenalty d t ≤ 10 * (20 * d + 10 * t) := by
  have := Nat.div_le_self ((20 * d - 10 * t) + (10 * t - 20 * d)) t
  unfold balancePenalty
  omega

/-- No total of a grid of the machine's sizes comes near the width of its register (R177). -/
theorem scoreGrid_total_lt (h : m.wf n = true) (hn : n ≤ 33) : (scoreGrid n m).total < 2 ^ 32 := by
  have hnn : n * n ≤ 33 * 33 := Nat.mul_le_mul hn hn
  have h1 : rule1 n m ≤ 2 * n * n := sum_gridLines_le h fun line hl => hl ▸ runPenalty_le_length line
  have h2 : blocks m ≤ n * n := by
    have hm := (Grid.wf_iff m).mp h
    simpa [hm.1] using blocks_le m hm.2
  have h3 : rule3 n m ≤ 40 * (2 * n * (2 * (n + 1))) := by
    refine Nat.mul_le_mul_left 40 (sum_gridLines_le h fun line hl => ?_)
    have ha := matchesAt_le finderLike line
    have hb := matchesAt_le finderLike.reverse line
    omega
  have h4 : rule4 n m ≤ 10 * (20 * (n * n) + 10 * (n * n)) := by
    have ha := balancePenalty_le (darkCount m) (n * n)
    have hb := darkCount_le h
    unfold rule4
    omega
  have hsum : (scoreGrid n m).total = rule1 n m + 3 * blocks m + rule3 n m + rule4 n m := rfl
  rw [hsum]
  nlinarith

end Bounds

/-! The scorer's registers -/

theorem score_total_lt (hd : Drawn s) (p : Nat) : (score p s).total < 2 ^ 32 :=
  scoreGrid_total_lt (candidate_wf p hd.mat_wf) hd.size_bounds.2

theorem selectMask_cand (s : State) {q : Nat} (hq : q < 8) :
    (selectMask s).cand[q] = BitVec.ofNat 32 (score q s).total := by
  simp [selectMask, allScores, List.getD_eq_getElem?_getD, hq]

theorem selectMask_maskId (s : State) :
    (selectMask s).maskId = BitVec.ofNat 3 (selectBest (allScores s)).1 := by simp [selectMask]

theorem selectMask_bestPen (s : State) :
    (selectMask s).bestPen = BitVec.ofNat 32 (selectBest (allScores s)).2.total := by simp [selectMask]

theorem SameMatrix.scorerInv (h : SameMatrix s t) (hs : ScorerInv s) : ScorerInv t := by
  simpa only [ScorerInv, h.phase, h.maskId, h.bestPen, h.cand] using hs

/-- The scorer's registers while no mask is committed (R34, R36). -/
theorem scorerInv_of_zero (h₁ : s.phase ≠ .masked) (h₂ : s.phase ≠ .done) (hm : s.maskId = 0)
    (hb : s.bestPen = 0) (hc : s.cand = Vector.replicate 8 0) : ScorerInv s :=
  ⟨fun _ _ => ⟨hm, hb, fun p => by simp [hc]⟩, fun h => absurd h (by simp [h₁, h₂])⟩

/-- The scorer's registers once a mask is committed (R36, R183). -/
theorem scorerInv_of_masked (hp : s.phase = .masked)
    (h : ∀ p : Fin 8, (p.val = s.maskId.toNat → s.cand[p] = s.bestPen) ∧
      s.bestPen.toNat ≤ s.cand[p].toNat ∧
      (p.val < s.maskId.toNat → s.bestPen.toNat < s.cand[p].toNat)) : ScorerInv s :=
  ⟨fun hn => absurd hp hn, fun _ => h⟩

theorem scorerInv_placeData (m : Nat) (hp : s.phase = .built) (hs : ScorerInv s) :
    ScorerInv (placeData m s) :=
  ⟨fun _ _ => hs.1 (by simp [hp]) (by simp [hp]), fun h => absurd h (by simp)⟩

theorem scorerInv_putFormat (hp : s.phase = .masked) (hs : ScorerInv s) (l : Nat) :
    ScorerInv (putFormat l s) :=
  ⟨fun _ h => absurd (putFormat_phase l s) h, fun _ => hs.2 (.inl hp)⟩

/-- MK.SEL leaves the first least total, and the registers hold the totals themselves (R178, R183). -/
theorem scorerInv_selectMask (hd : Drawn s) : ScorerInv (selectMask s) := by
  obtain ⟨hlt, heq, least, first⟩ := selectBest_allScores s
  have toNat_total : ∀ q, (BitVec.ofNat 32 (score q s).total).toNat = (score q s).total := fun q => by
    rw [BitVec.toNat_ofNat, Nat.mod_eq_of_lt (score_total_lt hd q)]
  have hid : (selectMask s).maskId.toNat = (selectBest (allScores s)).1 := by
    rw [selectMask_maskId, BitVec.toNat_ofNat, Nat.mod_eq_of_lt hlt]
  have hbest : (selectMask s).bestPen.toNat = (selectBest (allScores s)).2.total := by
    rw [selectMask_bestPen, heq, toNat_total]
  refine scorerInv_of_masked (selectMask_phase s) fun p => ?_
  rw [hid, hbest, Fin.getElem_fin, selectMask_cand s p.isLt, toNat_total]
  refine ⟨fun hp => ?_, least p p.isLt, first p⟩
  rw [selectMask_bestPen, heq, hp]

/-- Settles O56: MK.SEL commits the first least of eight totals that fit their registers; nothing else writes
MASKID, BESTPEN or CAND but the commands that zero them. -/
theorem committedMaskStaysOptimal : Obligations.CommittedMaskStaysOptimal := fun _ _ hg hs h =>
  (step_keeps_drawn (Q := ScorerInv) (fun _ _ hsame => hsame.scorerInv)
    (scorerInv_of_zero (by decide) (by decide) rfl rfl rfl)
    (fun _ _ _ _ => scorerInv_of_zero (by simp) (by simp) rfl rfl rfl)
    (fun m _ hp _ => scorerInv_placeData m hp) (fun _ _ hd _ => scorerInv_selectMask hd)
    (fun _ hp _ hs => scorerInv_putFormat hp hs 1) h ⟨hg, hs⟩).2

end Sys2Proof.Machine
end

section
/-! PROOFS. Running the command stream, the ports and repeated commands (R62, R67, R68): the outcome of the next pending
word, the accesses of the three ports, and what a command does when it is issued again on the state it left. -/

namespace Sys2Proof.Machine

variable {s t : State} {i : Instr}

/-! The step and the ports -/

/-- A pending word is issued at the state with that word taken off the stream (R68). -/
theorem step_eq_issue {w : Word} {ws : List Word} (h : s.pending = w :: ws) :
    step s = issue w { s with pending := ws } := by
  simp only [step, takeWord_cons h]

/-- While nothing is pending the machine waits (R252). -/
theorem step_eq_self (h : s.pending = []) : step s = .next s := by
  simp only [step, takeWord_nil h]

/-- The issue of a word that is a command (R230). -/
theorem issue_eq_exec {w : Word} (h : decode w = .ok i) (s : State) : issue w s = exec i s := by
  simp only [issue, h]

/-- Settles O6: the first pending word is taken and issued; its issue is its command. -/
theorem stepRunsTheNextCommand : Obligations.StepRunsTheNextCommand :=
  ⟨fun _ _ _ _ hp hd => (step_eq_issue hp).trans (issue_eq_exec hd _), fun _ _ _ => step_eq_issue,
    fun _ => step_eq_self⟩

/-- Every port stands at its index from the base (R62). -/
theorem portAt_base_add_index (base : Nat) (p : Port) : portAt base (base + p.index) = some p := by
  cases p <;> simp [portAt, Port.index]

/-- No port stands outside the three words from the base (R62). -/
theorem portAt_eq_none {base addr : Nat} (h : addr < base ∨ base + 2 < addr) :
    portAt base addr = none := by
  refine List.find?_eq_none.mpr fun p _ => ?_
  have hp : p.index ≤ 2 := by cases p <;> decide
  simp only [beq_iff_eq]
  omega

/-- Settles O20: the places from the indices of the ports, the accesses by what each port answers. -/
theorem portsIssueAndRead : Obligations.PortsIssueAndRead :=
  ⟨fun base => ⟨portAt_base_add_index base .cmd, portAt_base_add_index base .res,
      portAt_base_add_index base .status, fun _ => portAt_eq_none⟩,
    fun _ _ => rfl, fun _ => ⟨rfl, rfl, rfl⟩, fun _ _ => ⟨rfl, rfl⟩⟩

/-! A command issued again -/

/-- A safe command has its effect (R230 step (5)). -/
theorem exec_of_safeCommand (hi : executesInError i = false) (h : safeCommand i s = true) :
    exec i s = .next (effectOf i s) := by
  obtain ⟨he, ha, ho⟩ := safeCommand_iff.mp h
  rw [exec_eq_perform hi, ha, ho, perform_runs he]

/-- A command whose effect changes neither its admission nor its operand check is safe afterwards. -/
theorem safeCommand_effectOf (ha : admittedIn i (phaseAfter i s.phase) = admittedIn i s.phase)
    (ho : operandError i (effectOf i s) = operandError i s) (h : safeCommand i s = true) :
    safeCommand i (effectOf i s) = true := by
  obtain ⟨he, hphase, hoperand⟩ := safeCommand_iff.mp h
  exact safeCommand_iff.mpr ⟨effectOf_err_eq_false i he, by rw [effectOf_phase, ha, hphase],
    ho.trans hoperand⟩

/-- A command that stays admitted with legal operands, and whose effect is idempotent, leaves the state of its
first run when it is issued again (R67). -/
theorem exec_repeats (hi : executesInError i = false)
    (ha : admittedIn i (phaseAfter i s.phase) = admittedIn i s.phase)
    (ho : operandError i (effectOf i s) = operandError i s)
    (hidem : effectOf i (effectOf i s) = effectOf i s)
    (h : exec i s = .next t) (ht : t.err = s.err) : exec i t = .next t := by
  obtain ⟨-, rfl⟩ | ⟨c, he, -, rfl⟩ | ⟨hrun, rfl⟩ := exec_cases h
  · exact h
  · simp [he] at ht
  · rw [exec_of_safeCommand hi (safeCommand_effectOf ha ho (safeCommand_of_runs hi hrun)), hidem]

/-- A command that runs in one phase and leaves another faults with BadPhase when it is issued again (R67). -/
theorem exec_again_badPhase (hi : executesInError i = false)
    (ha : admittedIn i (phaseAfter i s.phase) = false) (h : exec i s = .next t) (ht : t.err = false) :
    exec i t = .next (raise .badPhase (encode i) t) := by
  have hphase : t.phase = phaseAfter i s.phase := by simpa [ht] using exec_phase hi h
  rw [exec_eq_perform hi, hphase, ha, perform_badPhase ht]

/-! The read commands -/

/-- A command whose effect writes RES only changes RES only, unless it faults (R67). -/
theorem exec_changes_only_res (hres : effectOf i s = { s with res := (effectOf i s).res })
    (h : exec i s = .next t) (ht : t.err = s.err) : t = { s with res := t.res } := by
  obtain ⟨-, rfl⟩ | ⟨c, he, -, rfl⟩ | ⟨-, rfl⟩ := exec_cases h
  · rfl
  · simp [he] at ht
  · exact hres

/-- CSR.RD of an implemented number, with ERR 0 or 1 (R203). -/
theorem exec_csrRd_of_some {n : Nat} {v : Word} (h : csr n s = some v) :
    exec (.csrRd n) s = .next (setRes v s) := by
  simp only [exec, execCsrRd, h]

/-- CSR.RD of an unimplemented number (R203). -/
theorem exec_csrRd_of_none {n : Nat} (h : csr n s = none) :
    exec (.csrRd n) s = perform (.csrRd n) true (some .badOperand) id s := by
  simp only [exec, execCsrRd, h, checkCsr, faultIf, Option.isNone_none, if_true]

/-- CSR.RD answers the same again, for RES is in no CSR (R41). -/
theorem exec_csrRd_repeats {n : Nat} (h : exec (.csrRd n) s = .next t) (ht : t.err = s.err) :
    exec (.csrRd n) t = .next t := by
  cases hv : csr n s with
  | some v =>
    rw [exec_csrRd_of_some hv] at h
    cases h
    exact exec_csrRd_of_some (by rw [csr_setRes, hv])
  | none =>
    cases he : s.err with
    | true =>
      rw [exec_csrRd_of_none hv, perform_ignored he] at h
      cases h
      rw [exec_csrRd_of_none hv, perform_ignored he]
    | false =>
      rw [exec_csrRd_of_none hv, perform_operand he] at h
      cases h
      simp [he] at ht

/-! The repeatable writers -/

/-- CWBUF keeps the byte that is written a second time (R125). -/
theorem writeCw_writeCw (k : Nat) (v : Byte) (s : State) :
    writeCw k v (writeCw k v s) = writeCw k v s := by
  simp [writeCw]

/-- A run of writes from `k` on leaves the codewords before `k` (R129). -/
theorem cwStream_writeCwRun (k : Nat) (bs : List Byte) (s : State) :
    cwStream k (writeCwRun k bs s) = cwStream k s := by
  refine List.ext_getElem (by simp [cwStream]) fun j hj _ => ?_
  have hj : j < k ∧ j < 100 := by simpa [cwStream] using hj
  simp [cwStream, writeCwRun_get, hj.1.not_ge]

/-- The codewords after a run of writes depend on the codewords before it only. -/
theorem writeCwRun_cwbuf_congr (k : Nat) (bs : List Byte) {u : State} (h : u.cwbuf = s.cwbuf) :
    (writeCwRun k bs u).cwbuf = (writeCwRun k bs s).cwbuf :=
  Vector.ext fun j hj => by simp only [writeCwRun_get _ _ _ j hj, h]

/-- A run of writes made a second time changes nothing. -/
theorem writeCwRun_cwbuf_of_written (k : Nat) (bs : List Byte) {u : State}
    (h : u.cwbuf = (writeCwRun k bs s).cwbuf) : (writeCwRun k bs u).cwbuf = u.cwbuf := by
  refine Vector.ext fun j hj => ?_
  simp only [h, writeCwRun_get _ _ _ j hj]
  split <;> rfl

/-- The items RS.ENC writes: RES, CWBUF, G and GE (R129). -/
theorem encodeBlock_eq (k e : Nat) (s : State) : encodeBlock k e s =
    { loadG e (genPoly e) s with
      res := BitVec.ofNat 32 (k + e)
      cwbuf := (writeCwRun k (rsRem (cwStream k s) e) s).cwbuf } := by
  rw [encodeBlock, writeCwRun_eq, writeCwRun_cwbuf_congr k _ (loadG_cwbuf s e (genPoly e))]
  rfl

/-- RS.ENC reads the k data codewords and writes behind them, so it encodes the same block again (R129). -/
theorem encodeBlock_encodeBlock (k e : Nat) (s : State) :
    encodeBlock k e (encodeBlock k e s) = encodeBlock k e s := by
  have hstream : cwStream k (encodeBlock k e s) = cwStream k s := cwStream_writeCwRun k _ _
  have hcwbuf : (encodeBlock k e s).cwbuf = (writeCwRun k (rsRem (cwStream k s) e) s).cwbuf := by
    rw [encodeBlock_eq]
  rw [encodeBlock_eq k e (encodeBlock k e s), hstream, writeCwRun_cwbuf_of_written k _ hcwbuf,
    encodeBlock_eq k e s]
  rfl

/-- MK.SCORE writes no item that a score is computed from (R180). -/
theorem scoreMask_scoreMask (p : Nat) (s : State) : scoreMask p (scoreMask p s) = scoreMask p s := rfl

/-- Settles O21: a read's value does not depend on RES, a repeatable writer's effect is idempotent, and a pipeline
command leaves the phase that admits it. -/
theorem readsChangeOnlyResAndRepeat : Obligations.ReadsChangeOnlyResAndRepeat := by
  refine ⟨fun i s t hi h ht => ?_, fun i s t hi h ht => ?_, fun i s t hi _ h ht => ?_⟩
  · cases i with
    | csrRd n => exact ⟨exec_changes_only_res rfl h ht, exec_csrRd_repeats h ht⟩
    | gfExp | gfLog | gfMul | cwRd | gRd | modRd | dlRd | mkPred | fmtEnc =>
      exact ⟨exec_changes_only_res rfl h ht, exec_repeats rfl rfl rfl rfl h ht⟩
    | _ => exact False.elim hi
  · cases i with
    | cwWr idx val => exact exec_repeats rfl rfl rfl (writeCw_writeCw idx val s) h ht
    | rsGen e => exact exec_repeats rfl rfl rfl rfl h ht
    | rsEnc k e => exact exec_repeats rfl rfl rfl (encodeBlock_encodeBlock k e s) h ht
    | mxBuild v => exact exec_repeats rfl rfl rfl rfl h ht
    | mkScore p => exact exec_repeats rfl rfl rfl (scoreMask_scoreMask p s) h ht
    | _ => exact False.elim hi
  · cases i with
    | mxPlace | mkSel | fmtPut => exact exec_again_badPhase rfl rfl h ht
    | _ => exact False.elim hi

end Sys2Proof.Machine
end

section
/-! PROOFS. The decoder, the encoder and the opcode map (R80 to R87). Each row of the map says what its words decode
to (`RowDecodes`); the obligations follow from that and from the words whose OP no row has. -/

namespace Sys2Proof

open Machine

variable {w : Word} {i : Instr} {r : OpcodeRow}

/-! The fields of a word -/

theorem toNat_shiftRight_op (w : Word) : (w >>> 24).toNat = fieldOp w := by
  simp [fieldOp, Nat.shiftRight_eq_div_pow]

theorem fieldOp_lt (w : Word) : fieldOp w < 256 := Nat.div_lt_of_lt_mul w.isLt

theorem fieldC_lt (w : Word) : fieldC w < 256 := Nat.mod_lt _ (by decide)

theorem fieldB_lt (w : Word) : fieldB w < 256 := Nat.mod_lt _ (by decide)

theorem fieldA_lt (w : Word) : fieldA w < 256 := Nat.mod_lt _ (by decide)

/-- IMM is the fields B and A side by side (R80). -/
theorem fieldImm_eq (w : Word) : fieldImm w = 256 * fieldB w + fieldA w := by
  unfold fieldImm fieldB fieldA
  omega

/-- The fields of a word are all its bits (R80, R87). -/
theorem assembleWord_fields (w : Word) :
    assembleWord (fieldOp w) (fieldC w) (fieldB w) (fieldA w) = w := by
  refine BitVec.eq_of_toNat_eq ?_
  rw [assembleWord, BitVec.toNat_ofNat]
  unfold fieldOp fieldC fieldB fieldA
  omega

/-! The must-be-zero bits (R81) and the masks (R84) -/

theorem formatZ_iff : formatZ w = true ↔ fieldC w = 0 ∧ fieldB w = 0 ∧ fieldA w = 0 := by
  simp [formatZ, fieldImm_eq]

theorem formatA_iff : formatA w = true ↔ fieldC w = 0 ∧ fieldB w = 0 := by simp [formatA]

theorem formatAB_iff : formatAB w = true ↔ fieldC w = 0 := by simp [formatAB]

/-- Keeping the bits above the low `k` of a word leaves the word with its OP and zeros exactly when the bits of C, B
and A above the low `k` are zero. -/
theorem and_highMask_eq_iff {k : Nat} (hk : k ≤ 24) (w : Word) :
    w &&& BitVec.allOnes 32 <<< k = BitVec.ofNat 32 (fieldOp w * 2 ^ 24) ↔ w.toNat % 2 ^ 24 < 2 ^ k := by
  have hmod : w.toNat % 2 ^ 24 % 2 ^ k = w.toNat % 2 ^ k := Nat.mod_mod_of_dvd _ (Nat.pow_dvd_pow 2 hk)
  have hpos : 0 < 2 ^ k := Nat.two_pow_pos k
  have hlow : (w >>> k <<< k).toNat = w.toNat - w.toNat % 2 ^ k := by
    rw [BitVec.toNat_shiftLeft, BitVec.toNat_ushiftRight, Nat.shiftLeft_eq, Nat.shiftRight_eq_div_pow,
      Nat.mod_eq_of_lt ((Nat.div_mul_le_self _ _).trans_lt w.isLt), Nat.div_mul_self_eq_mod_sub_self]
  have hop : (BitVec.ofNat 32 (fieldOp w * 2 ^ 24)).toNat = w.toNat - w.toNat % 2 ^ 24 := by
    rw [BitVec.toNat_ofNat, fieldOp]
    omega
  rw [← BitVec.shiftLeft_ushiftRight, ← BitVec.toNat_inj, hlow, hop]
  constructor
  · intro h
    have := Nat.mod_lt w.toNat hpos
    have := Nat.mod_le w.toNat (2 ^ k)
    omega
  · intro h
    rw [← hmod, Nat.mod_eq_of_lt h]

theorem requireZero_eq_ok {zero : Bool} {i j : Instr} : requireZero zero i = .ok j ↔ zero = true ∧ i = j := by
  cases zero <;> simp [requireZero]

/-! The rows of the opcode map -/

/-- A word with the row's OP is that row's command with the word's operands, provided it matches the row (R84). -/
def RowDecodes (r : OpcodeRow) : Prop :=
  ∀ w, fieldOp w = r.op → ∃ i : Instr, i.mnemonic = r.mnemonic ∧
    (w &&& r.mask = r.code → i.wellFormed = true ∧ encode i = w) ∧
    decode w = requireZero (w &&& r.mask == r.code) i

/-- A row whose operand fields lie in the low `k` bits, from the command it makes of the fields. -/
theorem rowDecodes_of_fields {k : Nat} (hk : k ≤ 24) {zero : Word → Bool} {cmd : Word → Instr}
    (hmask : r.mask = BitVec.allOnes 32 <<< k) (hcode : r.code = BitVec.ofNat 32 (r.op * 2 ^ 24))
    (hzero : ∀ w, zero w = true ↔ w.toNat % 2 ^ 24 < 2 ^ k)
    (hdecode : ∀ w, fieldOp w = r.op → decode w = requireZero (zero w) (cmd w))
    (hname : ∀ w, (cmd w).mnemonic = r.mnemonic)
    (hword : ∀ w, zero w = true → (cmd w).wellFormed = true ∧
      encode (cmd w) = assembleWord r.op (fieldC w) (fieldB w) (fieldA w)) : RowDecodes r := by
  intro w hop
  have hmatch : w &&& r.mask = r.code ↔ zero w = true := by
    rw [hmask, hcode, ← hop, and_highMask_eq_iff hk, hzero]
  refine ⟨cmd w, hname w, fun h => ?_, ?_⟩
  · obtain ⟨hwf, hencode⟩ := hword w (hmatch.mp h)
    exact ⟨hwf, by rw [hencode, ← hop, assembleWord_fields]⟩
  · rw [hdecode w hop, Bool.eq_iff_iff.mpr (beq_iff_eq.trans hmatch)]

section Formats

variable {op : Nat} {name : String} {code : Word}

/-- A row of format Z: no operand. -/
theorem rowDecodes_formatZ (cmd : Instr) (hcode : code = BitVec.ofNat 32 (op * 2 ^ 24) := by rfl)
    (hdecode : ∀ w, fieldOp w = op → decode w = requireZero (formatZ w) cmd := by
      intro w h; simp only [decode, h])
    (hname : cmd.mnemonic = name := by rfl) (hwf : cmd.wellFormed = true := by rfl)
    (hencode : encode cmd = assembleWord op 0 0 0 := by rfl) :
    RowDecodes ⟨op, name, code, 0xFFFFFFFF⟩ := by
  refine rowDecodes_of_fields (k := 0) (by decide) rfl hcode (fun w => ?_) hdecode (fun _ => hname)
    fun w h => ?_
  · rw [formatZ_iff, fieldC, fieldB, fieldA]
    omega
  · obtain ⟨hc, hb, ha⟩ := formatZ_iff.mp h
    exact ⟨hwf, by rw [hencode, hc, hb, ha]⟩

/-- A row of format A: one byte. -/
theorem rowDecodes_formatA (cmd : Nat → Instr) (hcode : code = BitVec.ofNat 32 (op * 2 ^ 24) := by rfl)
    (hdecode : ∀ w, fieldOp w = op → decode w = requireZero (formatA w) (cmd (fieldA w)) := by
      intro w h; simp only [decode, h])
    (hname : ∀ a, (cmd a).mnemonic = name := by intro a; rfl)
    (hwf : ∀ a < 256, (cmd a).wellFormed = true := by intro a ha; simp [Instr.wellFormed, ha])
    (hencode : ∀ a < 256, encode (cmd a) = assembleWord op 0 0 a := by
      intro a ha; simp [encode, Nat.mod_eq_of_lt ha]) :
    RowDecodes ⟨op, name, code, 0xFFFFFF00⟩ := by
  refine rowDecodes_of_fields (k := 8) (by decide) rfl hcode (fun w => ?_) hdecode (fun _ => hname _)
    fun w h => ?_
  · rw [formatA_iff, fieldC, fieldB]
    omega
  · obtain ⟨hc, hb⟩ := formatA_iff.mp h
    exact ⟨hwf _ (fieldA_lt w), by rw [hencode _ (fieldA_lt w), hc, hb]⟩

/-- A row of format AB: two bytes. -/
theorem rowDecodes_formatAB (cmd : Nat → Nat → Instr) (hcode : code = BitVec.ofNat 32 (op * 2 ^ 24) := by rfl)
    (hdecode : ∀ w, fieldOp w = op → decode w = requireZero (formatAB w) (cmd (fieldA w) (fieldB w)) := by
      intro w h; simp only [decode, h])
    (hname : ∀ a b, (cmd a b).mnemonic = name := by intro a b; rfl)
    (hwf : ∀ a < 256, ∀ b < 256, (cmd a b).wellFormed = true := by
      intro a ha b hb; simp [Instr.wellFormed, ha, hb])
    (hencode : ∀ a < 256, ∀ b < 256, encode (cmd a b) = assembleWord op 0 b a := by
      intro a ha b hb; simp [encode, Nat.mod_eq_of_lt, ha, hb]) :
    RowDecodes ⟨op, name, code, 0xFFFF0000⟩ := by
  refine rowDecodes_of_fields (k := 16) (by decide) rfl hcode (fun w => ?_) hdecode (fun _ => hname _ _)
    fun w h => ?_
  · rw [formatAB_iff, fieldC]
    omega
  · exact ⟨hwf _ (fieldA_lt w) _ (fieldB_lt w),
      by rw [hencode _ (fieldA_lt w) _ (fieldB_lt w), formatAB_iff.mp h]⟩

/-- A row of format I: one number of 16 bits, its high byte in the field B and its low byte in the field A. -/
theorem rowDecodes_formatI (cmd : Nat → Instr) (hcode : code = BitVec.ofNat 32 (op * 2 ^ 24) := by rfl)
    (hdecode : ∀ w, fieldOp w = op → decode w = requireZero (formatAB w) (cmd (fieldImm w)) := by
      intro w h; simp only [decode, h])
    (hname : ∀ n, (cmd n).mnemonic = name := by intro n; rfl)
    (hwf : ∀ n < 65536, (cmd n).wellFormed = true := by intro n hn; simp [Instr.wellFormed, hn])
    (hencode : ∀ n, encode (cmd n) = assembleWord op 0 (n / 256) (n % 256) := by intro n; rfl) :
    RowDecodes ⟨op, name, code, 0xFFFF0000⟩ :=
  rowDecodes_formatAB (fun a b => cmd (256 * b + a)) hcode
    (fun w h => by rw [hdecode w h, fieldImm_eq]) (fun _ _ => hname _)
    (fun a ha b hb => hwf _ (by omega))
    fun a ha b hb => by
      rw [hencode, show (256 * b + a) / 256 = b by omega, show (256 * b + a) % 256 = a by omega]

/-- The row of MK.PRED: three bytes and no must-be-zero bit. -/
theorem rowDecodes_mkPred : RowDecodes ⟨0x40, "MK.PRED", 0x40000000, 0xFF000000⟩ :=
  rowDecodes_of_fields (k := 24) (by decide) (zero := fun _ => true)
    (cmd := fun w => .mkPred (fieldC w) (fieldA w) (fieldB w)) rfl rfl
    (fun w => by simp [Nat.mod_lt]) (fun w h => by simp only [decode, h]; rfl) (fun _ => rfl)
    fun w _ => ⟨by simp [Instr.wellFormed, fieldC_lt, fieldB_lt, fieldA_lt], rfl⟩

end Formats

/-- Every row of the opcode map, each with its format and its command (R83). -/
theorem rowDecodes_of_mem (hr : r ∈ opcodeMap) : RowDecodes r := by
  revert r
  simp only [opcodeMap, List.cons_append, List.nil_append, List.forall_mem_cons]
  exact ⟨rowDecodes_formatZ .nop, rowDecodes_formatZ .reset, rowDecodes_formatZ .clrErr,
    rowDecodes_formatA .csrRd,
    rowDecodes_formatI .gfExp,
    rowDecodes_formatA fun a => .gfLog (.ofNat 8 a),
    rowDecodes_formatAB fun a b => .gfMul (.ofNat 8 a) (.ofNat 8 b),
    rowDecodes_formatAB fun a b => .cwWr a (.ofNat 8 b),
    rowDecodes_formatA .cwRd, rowDecodes_formatA .rsGen, rowDecodes_formatA .gRd, rowDecodes_formatAB .rsEnc,
    rowDecodes_formatA .mxBuild, rowDecodes_formatAB .modRd, rowDecodes_formatA .mxPlace,
    rowDecodes_formatI .dlRd,
    rowDecodes_mkPred, rowDecodes_formatA .mkScore, rowDecodes_formatZ .mkSel,
    rowDecodes_formatA .fmtEnc, rowDecodes_formatA .fmtPut, List.forall_mem_nil _⟩

/-- A word whose OP no row has is no command (R84). -/
theorem decode_of_unlisted (h : ∀ r ∈ opcodeMap, r.op ≠ fieldOp w) : decode w = .error .unknownOpcode := by
  unfold decode
  split
  case h_22 => rfl
  all_goals
    next hop =>
      rw [hop] at h
      exact absurd h (by decide)

/-- A command comes from a row, which its word matches and which is well formed and the word's own (R84, R87). -/
theorem row_of_decode (h : decode w = .ok i) :
    ∃ r ∈ opcodeMap, r.op = fieldOp w ∧ w &&& r.mask = r.code ∧ i.mnemonic = r.mnemonic ∧
      i.wellFormed = true ∧ encode i = w := by
  by_cases hl : ∀ r ∈ opcodeMap, r.op ≠ fieldOp w
  · rw [decode_of_unlisted hl] at h
    cases h
  · push Not at hl
    obtain ⟨r, hr, hop⟩ := hl
    obtain ⟨j, hname, hword, hdecode⟩ := rowDecodes_of_mem hr w hop.symm
    obtain ⟨hmatch, rfl⟩ := requireZero_eq_ok.mp (hdecode.symm.trans h)
    rw [beq_iff_eq] at hmatch
    exact ⟨r, hr, hop, hmatch, hname, hword hmatch⟩

/-- A word that matches a row is that row's command (R84). -/
theorem decode_of_matches (hr : r ∈ opcodeMap) (hop : r.op = fieldOp w) (h : w &&& r.mask = r.code) :
    ∃ i, decode w = .ok i ∧ i.mnemonic = r.mnemonic := by
  obtain ⟨j, hname, -, hdecode⟩ := rowDecodes_of_mem hr w hop.symm
  exact ⟨j, hdecode.trans (requireZero_eq_ok.mpr ⟨beq_iff_eq.mpr h, rfl⟩), hname⟩

theorem opcodes_nodup : (opcodeMap.map OpcodeRow.op).Nodup := by decide

/-- A row is known by its OP (R84). -/
theorem row_eq_of_op_eq {r' : OpcodeRow} (hr : r ∈ opcodeMap) (hr' : r' ∈ opcodeMap) (h : r.op = r'.op) :
    r = r' :=
  List.inj_on_of_nodup_map opcodes_nodup hr hr' h

/-- The mask of a row keeps OP, so a word that matches the row has its OP (R84). -/
theorem op_eq_of_matches (hr : r ∈ opcodeMap) (h : w &&& r.mask = r.code) : r.op = fieldOp w := by
  have hrow : ∀ r ∈ opcodeMap, r.mask >>> 24 = 0xFF#32 ∧ r.op = (r.code >>> 24).toNat := by decide
  obtain ⟨hmask, hcode⟩ := hrow r hr
  have hop := fieldOp_lt w
  rw [hcode, ← h, BitVec.ushiftRight_and_distrib, hmask, BitVec.toNat_and, toNat_shiftRight_op]
  exact (Nat.and_two_pow_sub_one_eq_mod _ 8).trans (Nat.mod_eq_of_lt hop)

/-- A word is the command of the row with its OP exactly when it matches that row (R84). -/
theorem decode_ok_iff_matches (hr : r ∈ opcodeMap) (hop : r.op = fieldOp w) :
    (∃ i, decode w = .ok i) ↔ w &&& r.mask = r.code := by
  refine ⟨fun ⟨i, hi⟩ => ?_, fun h => (decode_of_matches hr hop h).imp fun _ => And.left⟩
  obtain ⟨r', hr', hop', hmatch, -⟩ := row_of_decode hi
  rwa [row_eq_of_op_eq hr hr' (hop.trans hop'.symm)]

/-! The obligations -/

/-- Decoding undoes encoding, command by command. -/
theorem decode_encode : ∀ i : Instr, i.wellFormed = true → decode (encode i) = .ok i
  | .nop => Laws.RoundTrip.nop
  | .reset => Laws.RoundTrip.reset
  | .clrErr => Laws.RoundTrip.clrErr
  | .csrRd n => Laws.RoundTrip.csrRd n
  | .gfExp k => Laws.RoundTrip.gfExp k
  | .gfLog a => Laws.RoundTrip.gfLog a
  | .gfMul a b => Laws.RoundTrip.gfMul a b
  | .cwWr idx val => Laws.RoundTrip.cwWr idx val
  | .cwRd idx => Laws.RoundTrip.cwRd idx
  | .rsGen e => Laws.RoundTrip.rsGen e
  | .gRd j => Laws.RoundTrip.gRd j
  | .rsEnc k e => Laws.RoundTrip.rsEnc k e
  | .mxBuild v => Laws.RoundTrip.mxBuild v
  | .modRd x y => Laws.RoundTrip.modRd x y
  | .mxPlace m => Laws.RoundTrip.mxPlace m
  | .dlRd k => Laws.RoundTrip.dlRd k
  | .mkPred p x y => Laws.RoundTrip.mkPred p x y
  | .mkScore p => Laws.RoundTrip.mkScore p
  | .mkSel => Laws.RoundTrip.mkSel
  | .fmtEnc d => Laws.RoundTrip.fmtEnc d
  | .fmtPut lvl => Laws.RoundTrip.fmtPut lvl

/-- Settles O2: command by command, decoding gives every field of the assembled word back. -/
theorem decodeOfEncodeIsTheCommand : Obligations.DecodeOfEncodeIsTheCommand := decode_encode

/-- Settles O3: the fields of a word that matches its row are the operands, and they are all its bits. -/
theorem encodeOfDecodeIsTheWord : Obligations.EncodeOfDecodeIsTheWord := fun _ _ h => by
  obtain ⟨_, _, _, _, _, hword⟩ := row_of_decode h
  exact hword

/-- Settles O4: the row with the word's OP says what the word decodes to, and a word that matches a row has its OP. -/
theorem decodingFollowsTheOpcodeMap : Obligations.DecodingFollowsTheOpcodeMap := by
  refine ⟨fun _ hr _ hr' => row_eq_of_op_eq hr hr', fun w h i hi => ?_, fun w r hr hop => ⟨?_, ?_⟩,
    fun w r hr r' hr' h h' =>
      row_eq_of_op_eq hr hr' ((op_eq_of_matches hr h).trans (op_eq_of_matches hr' h').symm)⟩
  · obtain ⟨r, hr, hop, -⟩ := row_of_decode hi
    exact h r hr (hop.trans (toNat_shiftRight_op w).symm)
  · rw [toNat_shiftRight_op] at hop
    exact ⟨fun ⟨i, hi, _⟩ => (decode_ok_iff_matches hr hop).mp ⟨i, hi⟩, decode_of_matches hr hop⟩
  · exact decode_ok_iff_matches hr (hop.trans (toNat_shiftRight_op w))

/-- A word is no command exactly when its OP is unlisted or it does not match the row with its OP (R86). -/
theorem illegal_iff : (∀ i, decode w ≠ .ok i) ↔
    (∀ r ∈ opcodeMap, r.op ≠ fieldOp w) ∨ ∃ r ∈ opcodeMap, r.op = fieldOp w ∧ w &&& r.mask ≠ r.code := by
  constructor
  · intro h
    by_contra! hc
    obtain ⟨⟨r, hr, hop⟩, hmatch⟩ := hc
    obtain ⟨i, hi, -⟩ := decode_of_matches hr hop (hmatch r hr hop)
    exact h i hi
  · rintro (h | ⟨r, hr, hop, hne⟩) i hi
    · rw [decode_of_unlisted h] at hi
      cases hi
    · exact hne ((decode_ok_iff_matches hr hop).mp ⟨i, hi⟩)

/-- A word that is no command is rejected when it is issued (R230 step (1)). -/
theorem issue_of_illegal (h : ∀ i, decode w ≠ .ok i) (s : State) : issue w s = .next (rejectWord w s) := by
  unfold issue
  split
  · rfl
  case h_2 i hi => exact absurd hi (h i)

/-- Settles O5: the words that match no row, and their rejection, which faults or is ignored. -/
theorem illegalWordFaultsOrIsIgnored : Obligations.IllegalWordFaultsOrIsIgnored := by
  refine ⟨opcodes_nodup, rfl, rfl, fun w => ⟨?_, fun h s => ⟨fun hs => ?_, fun hs => ?_⟩⟩⟩
  · rw [toNat_shiftRight_op]
    exact illegal_iff
  · rw [issue_of_illegal h, rejectWord_ok w hs]
    rfl
  · rw [issue_of_illegal h, rejectWord_err w hs]

end Sys2Proof
end

section
/-! PROOFS. The field arithmetic of GF(2^8) (R100 to R102, R106). The two tables are inverse to each other and EXP
doubles from entry to entry, so a product of nonzero bytes is a sum of exponents; the laws and the bitwise product
follow from that. -/

namespace Sys2Proof.Machine

/-! Doubling -/

/-- Doubling is a shift, with the low bits of 0x11D XORed in where the top bit falls out (R100). -/
theorem fieldDouble_eq_shift_xor (a : Byte) :
    fieldDouble a = a <<< 1 ^^^ if a.msb then 0x1D#8 else 0#8 := by
  unfold fieldDouble
  rw [BitVec.msb_eq_decide]
  split
  · rw [if_neg (by simp; omega), BitVec.xor_zero]
  · rw [if_pos (by simp; omega)]
    rfl

/-- A byte taken where exactly one of two bits is set is the sum of the byte taken for either bit. -/
theorem ite_xor_eq_xor_ite (p q : Bool) (c : Byte) :
    (if p ^^ q then c else 0#8) = (if p then c else 0#8) ^^^ if q then c else 0#8 := by
  cases p <;> cases q <;> simp

/-- Doubling is linear over xor. -/
theorem fieldDouble_xor (a b : Byte) : fieldDouble (a ^^^ b) = fieldDouble a ^^^ fieldDouble b := by
  simp only [fieldDouble_eq_shift_xor, BitVec.shiftLeft_xor_distrib, BitVec.msb_xor, ite_xor_eq_xor_ite]
  ac_rfl

/-- Doubling as the rules write it, on numbers (R106). -/
theorem fieldDouble_toNat : ∀ a : Byte, (fieldDouble a).toNat =
    if 128 ≤ a.toNat then (2 * a.toNat) ^^^ 0x11D else 2 * a.toNat := by
  decide +kernel

/-- Bit 8 of the doubled byte is its bit 7. -/
theorem testBit_eight_two_mul (a : Byte) : (2 * a.toNat).testBit 8 = true ↔ 128 ≤ a.toNat := by
  have := a.isLt
  rw [Nat.testBit_eq_decide_div_mod_eq, decide_eq_true_eq]
  omega

/-! The tables -/

/-- EXP depends on its index modulo 255 only (R100). -/
@[simp] theorem expAt_mod (i : Nat) : expAt (i % 255) = expAt i := by simp [expAt]

theorem expAt_congr {i j : Nat} (h : i % 255 = j % 255) : expAt i = expAt j := by
  rw [← expAt_mod i, h, expAt_mod]

/-- EXP doubles from entry to entry, also over the end of the table (R100). -/
theorem expAt_succ (i : Nat) : expAt (i + 1) = fieldDouble (expAt i) := by
  have table : ∀ i < 255, expAt (i + 1) = fieldDouble (expAt i) := by decide +kernel
  rw [← expAt_mod i, ← table _ (Nat.mod_lt i (by decide))]
  exact expAt_congr (by omega)

theorem expAt_zero : expAt 0 = 1#8 := by decide

theorem expAt_one : expAt 1 = 2#8 := by decide

/-- LOG undoes EXP, up to the period (R101). -/
theorem logAt_expAt (i : Nat) : logAt (expAt i) = some (i % 255) := by
  have table : ∀ i < 255, logAt (expAt i) = some i := by decide +kernel
  rw [← expAt_mod i, table _ (Nat.mod_lt i (by decide))]

/-- Every nonzero byte is an entry of EXP (R101). -/
theorem exists_expAt {a : Byte} (ha : a ≠ 0) : ∃ i, expAt i = a := by
  have table : ∀ a : Byte, a ≠ 0 → (logAt a).map expAt = some a := by decide +kernel
  obtain ⟨i, -, hi⟩ := Option.map_eq_some_iff.mp (table a ha)
  exact ⟨i, hi⟩

theorem logAt_zero : logAt 0#8 = none := by decide

/-- LOG[a] is the index below 255 at which EXP has `a` (R101). -/
theorem logAt_eq_some_iff {a : Byte} {i : Nat} : logAt a = some i ↔ i < 255 ∧ expAt i = a := by
  constructor
  · intro h
    have ha : a ≠ 0 := by
      rintro rfl
      simp [logAt_zero] at h
    obtain ⟨j, rfl⟩ := exists_expAt ha
    obtain rfl : j % 255 = i := by simpa [logAt_expAt] using h
    exact ⟨Nat.mod_lt j (by decide), expAt_mod j⟩
  · rintro ⟨hi, rfl⟩
    rw [logAt_expAt, Nat.mod_eq_of_lt hi]

theorem expAt_ne_zero (i : Nat) : expAt i ≠ 0#8 := by
  intro h
  have hlog := logAt_expAt i
  simp [h, logAt_zero] at hlog

/-- Every nonzero byte has a LOG (R101). -/
theorem exists_logAt {a : Byte} (ha : a ≠ 0) : ∃ i, logAt a = some i := by
  obtain ⟨i, rfl⟩ := exists_expAt ha
  exact ⟨_, logAt_expAt i⟩

/-- Settles O22: from one entry to the next EXP doubles, and it has the period 255. -/
theorem expFollowsTheRecurrence : Obligations.ExpFollowsTheRecurrence := by
  refine ⟨expAt_zero, fun i _ => ?_, fun i _ => expAt_ne_zero i, fun i _ hi => expAt_congr (by omega), ?_⟩
  · simp only [expAt_succ, fieldDouble_toNat, testBit_eight_two_mul]
  · decide

/-- Settles O23: LOG[a] is an index of `a`, and an index of `a` is LOG[a]. -/
theorem logIsTheUniqueExponent : Obligations.LogIsTheUniqueExponent := by
  refine ⟨fun a ha => ?_, by decide⟩
  obtain ⟨i, hlog⟩ := exists_logAt ha
  obtain ⟨hi, hexp⟩ := logAt_eq_some_iff.mp hlog
  refine ⟨i, by omega, hlog, hexp, fun j hj hj' => ?_⟩
  have hlog' : logAt a = some j := logAt_eq_some_iff.mpr ⟨by omega, hj'⟩
  exact Option.some.inj (hlog'.symm.trans hlog)

/-! The product -/

/-- A product of powers is the power of the sum (R106). -/
theorem gfMul_expAt (i j : Nat) : gfMul (expAt i) (expAt j) = expAt (i + j) := by
  simp only [gfMul, logAt_expAt, expAt_mod]
  exact expAt_congr (by omega)

@[simp] theorem gfMul_zero_left (b : Byte) : gfMul 0#8 b = 0#8 := by simp [gfMul, logAt_zero]

@[simp] theorem gfMul_zero_right (a : Byte) : gfMul a 0#8 = 0#8 := by
  unfold gfMul
  split
  case h_1 h => simp [logAt_zero] at h
  case h_2 => rfl

/-- What holds of 0 and of every entry of EXP holds of every byte. -/
theorem byte_cases_expAt {P : Byte → Prop} (zero : P 0#8) (exp : ∀ i, P (expAt i)) (a : Byte) : P a := by
  by_cases ha : a = 0#8
  · exact ha ▸ zero
  · obtain ⟨i, rfl⟩ := exists_expAt ha
    exact exp i

theorem gfMul_comm (a b : Byte) : gfMul a b = gfMul b a := by
  cases a using byte_cases_expAt with
  | zero => simp
  | exp i =>
    cases b using byte_cases_expAt with
    | zero => simp
    | exp j => rw [gfMul_expAt, gfMul_expAt, Nat.add_comm]

theorem gfMul_assoc (a b c : Byte) : gfMul (gfMul a b) c = gfMul a (gfMul b c) := by
  cases a using byte_cases_expAt with
  | zero => simp
  | exp i =>
    cases b using byte_cases_expAt with
    | zero => simp
    | exp j =>
      cases c using byte_cases_expAt with
      | zero => simp
      | exp k => simp only [gfMul_expAt, Nat.add_assoc]

@[simp] theorem gfMul_one_right (a : Byte) : gfMul a 1#8 = a := by
  cases a using byte_cases_expAt with
  | zero => simp
  | exp i => rw [← expAt_zero, gfMul_expAt, Nat.add_zero]

@[simp] theorem gfMul_one_left (a : Byte) : gfMul 1#8 a = a := by rw [gfMul_comm, gfMul_one_right]

theorem eq_zero_or_eq_zero_of_gfMul_eq_zero {a b : Byte} (h : gfMul a b = 0) : a = 0 ∨ b = 0 := by
  by_contra! hne
  obtain ⟨ha, hb⟩ := hne
  obtain ⟨i, rfl⟩ := exists_expAt ha
  obtain ⟨j, rfl⟩ := exists_expAt hb
  exact expAt_ne_zero (i + j) ((gfMul_expAt i j).symm.trans h)

/-- A factor 2 doubles (R106). -/
theorem gfMul_two_left (a : Byte) : gfMul 2#8 a = fieldDouble a := by
  cases a using byte_cases_expAt with
  | zero => rw [gfMul_zero_right]; rfl
  | exp j => rw [← expAt_one, gfMul_expAt, Nat.add_comm, expAt_succ]

/-- A factor `2^(i+1)` is a factor `2^i` and a doubling. -/
theorem gfMul_expAt_succ (i : Nat) (b : Byte) :
    gfMul (expAt (i + 1)) b = fieldDouble (gfMul (expAt i) b) := by
  rw [expAt_succ, ← gfMul_two_left, gfMul_assoc, gfMul_two_left]

/-- The product is linear over xor: a nonzero factor is a number of doublings, and doubling is linear (R106). -/
theorem gfMul_xor (a b c : Byte) : gfMul a (b ^^^ c) = gfMul a b ^^^ gfMul a c := by
  cases a using byte_cases_expAt with
  | zero => simp
  | exp i =>
    induction i with
    | zero => simp [expAt_zero]
    | succ i ih => simp only [gfMul_expAt_succ, ih, fieldDouble_xor]

/-- The factor doubled doubles the product. -/
theorem gfMul_fieldDouble (a b : Byte) : gfMul a (fieldDouble b) = fieldDouble (gfMul a b) := by
  rw [← gfMul_two_left b, ← gfMul_assoc, gfMul_comm a 2#8, gfMul_assoc, gfMul_two_left]

/-- Settles O25: by the exponents of the nonzero factors; the distributive law by doublings. -/
theorem fieldLaws : Obligations.FieldLaws := by
  refine ⟨gfMul_comm, gfMul_one_right, gfMul_zero_right, fun a b c => (gfMul_assoc a b c).symm, gfMul_xor,
    fun _ _ => eq_zero_or_eq_zero_of_gfMul_eq_zero, fun a => ?_, fun i j => ?_⟩
  · exact (congrArg BitVec.toNat (gfMul_two_left a)).trans (fieldDouble_toNat a)
  · rw [gfMul_expAt, expAt_mod]

/-! The bitwise product -/

/-- One round of `fieldProduct`: the sum so far doubled, and `a` added where `b` has bit `k` (R102). -/
def productRound (a b acc : Byte) (k : Nat) : Byte :=
  if b.getLsbD k then fieldDouble acc ^^^ a else fieldDouble acc

theorem fieldProduct_eq_foldl (a b : Byte) :
    fieldProduct a b = (List.range 8).reverse.foldl (productRound a b) 0#8 := rfl

/-- The bits of `b` from `k` up are twice those from `k + 1` up, and bit `k`. -/
theorem ushiftRight_eq_fieldDouble_xor (b : Byte) (k : Nat) :
    b >>> k = fieldDouble (b >>> (k + 1)) ^^^ if b.getLsbD k then 1#8 else 0#8 := by
  have hmsb : (b >>> (k + 1)).msb = false := by simp [BitVec.msb_ushiftRight]
  rw [fieldDouble_eq_shift_xor, hmsb]
  ext j hj
  cases j with
  | zero => cases h : b.getLsbD k <;> simp [h]
  | succ j => cases b.getLsbD k <;> simp [Nat.add_left_comm, Nat.add_comm]

/-- A round brings the product with the bits from `k + 1` up to the product with those from `k` up. -/
theorem productRound_gfMul (a b : Byte) (k : Nat) :
    productRound a b (gfMul a (b >>> (k + 1))) k = gfMul a (b >>> k) := by
  rw [ushiftRight_eq_fieldDouble_xor b k, gfMul_xor, gfMul_fieldDouble, productRound]
  split <;> simp

/-- The rounds from bit `n - 1` down bring the product with the bits from `n` up to the whole product. -/
theorem foldl_productRound (a b : Byte) (n : Nat) :
    (List.range n).reverse.foldl (productRound a b) (gfMul a (b >>> n)) = gfMul a b := by
  induction n with
  | zero => simp
  | succ n ih => simp [List.range_succ, productRound_gfMul, ih]

/-- The product by the tables is the bitwise product modulo 0x11D (R102). -/
theorem gfMul_eq_fieldProduct (a b : Byte) : gfMul a b = fieldProduct a b := by
  have h : gfMul a (b >>> 8) = 0#8 := by rw [BitVec.ushiftRight_eq_zero (by decide), gfMul_zero_right]
  rw [fieldProduct_eq_foldl, ← h, foldl_productRound]

/-- Settles O24: the factors' exponents are their LOG entries; the bitwise product bit by bit. -/
theorem mulIsTheFieldProduct : Obligations.MulIsTheFieldProduct := by
  refine ⟨?_, fun a b i j ha hb => ?_, gfMul_eq_fieldProduct⟩
  · rintro a b (rfl | rfl) <;> simp
  · obtain ⟨hi, rfl⟩ := logAt_eq_some_iff.mp ha
    obtain ⟨hj, rfl⟩ := logAt_eq_some_iff.mp hb
    rw [gfMul_expAt, expAt_mod]
    exact ⟨by omega, rfl, rfl⟩

end Sys2Proof.Machine
end

section
/-! PROOFS. The commands GF.EXP, GF.LOG and GF.MUL (R103 to R105): what a command does that no check or its operand
check stops, the words that a row's must-be-zero bits exclude, and the three commands' own encodings. -/

namespace Sys2Proof.Machine

variable {s : State} {i : Instr}

/-! The outcome and the word of a command -/

/-- With ERR = 0 an admitted command with legal operands has its effect (R230 step (5)). -/
theorem exec_effect (hi : executesInError i = false) (he : s.err = false)
    (ha : admittedIn i s.phase = true) (ho : operandError i s = none) :
    exec i s = .next (effectOf i s) :=
  exec_of_safeCommand hi (safeCommand_iff.mpr ⟨he, ha, ho⟩)

/-- With ERR = 0 an admitted command faults with the code of its operand check (R230 step (4)). -/
theorem exec_operandError (hi : executesInError i = false) (he : s.err = false)
    (ha : admittedIn i s.phase = true) {c : ErrCode} (ho : operandError i s = some c) :
    exec i s = .next (raise c (encode i) s) := by
  rw [exec_eq_perform hi, ha, ho, perform_operand he]

/-- A word given as a number decodes to the well-formed command whose encoding it is (R87). -/
theorem decode_ofNat {n : Nat} (hw : encode i = BitVec.ofNat 32 n) (hi : i.wellFormed = true) :
    decode (BitVec.ofNat 32 n) = .ok i :=
  hw ▸ decode_encode i hi

/-- A row has a one-byte OP, and its match is that OP with zeros behind it (R83). -/
theorem row_op_lt_and_code {r : OpcodeRow} (hr : r ∈ opcodeMap) :
    r.op < 256 ∧ r.code = BitVec.ofNat 32 (r.op * 2 ^ 24) := by
  revert r
  decide

/-- A word with the OP of a row whose operands are the low `k` bits is illegal when a bit between these and OP is
one (R81, R86). -/
theorem illegalAt_of_mask {r : OpcodeRow} {k n : Nat} (hr : r ∈ opcodeMap)
    (hmask : r.mask = BitVec.allOnes 32 <<< k) (hk : k ≤ 24) (hop : n / 2 ^ 24 = r.op)
    (hlow : 2 ^ k ≤ n % 2 ^ 24) : IllegalAt n := by
  obtain ⟨hop_lt, hcode⟩ := row_op_lt_and_code hr
  have hn : (BitVec.ofNat 32 n).toNat = n := by
    rw [BitVec.toNat_ofNat]
    omega
  have hfield : fieldOp (BitVec.ofNat 32 n) = r.op := by rw [fieldOp, hn, hop]
  intro s hs
  rw [issue_of_illegal (illegal_iff.mpr (.inr ⟨r, hr, hfield.symm, ?_⟩)), rejectWord_ok _ hs]
  rw [hmask, hcode, ← hfield, Ne, and_highMask_eq_iff hk, hn]
  omega

/-! The three commands -/

theorem encode_gfExp (i : Nat) : encode (.gfExp i) = BitVec.ofNat 32 (0x10000000 + i) :=
  congrArg (BitVec.ofNat 32) (by omega)

theorem encode_gfLog (a : Byte) : encode (.gfLog a) = BitVec.ofNat 32 (0x11000000 + a.toNat) :=
  congrArg (BitVec.ofNat 32) (by omega)

theorem encode_gfMul (a b : Byte) :
    encode (.gfMul a b) = BitVec.ofNat 32 (0x12000000 + b.toNat * 256 + a.toNat) :=
  congrArg (BitVec.ofNat 32) (by omega)

/-- Settles O26: no check stops GF.EXP up to 511, and above its operand check does. -/
theorem gfExpReadsTheTable : Obligations.GfExpReadsTheTable := by
  refine ⟨fun i hi => decode_ofNat (encode_gfExp i) (by simp [Instr.wellFormed, hi]),
    fun i s he hi => exec_effect rfl he rfl (by simp [operandError, hi]),
    fun i s he hi => exec_operandError rfl he rfl (by simp [operandError, hi]),
    fun c imm hc hc' himm => ?_, by decide⟩
  exact illegalAt_of_mask (r := ⟨0x10, "GF.EXP", 0x10000000, 0xFFFF0000⟩) (k := 16) (by simp [opcodeMap])
    (by decide) (by decide) (by simp only; omega) (by omega)

/-- Settles O27: no check stops GF.LOG of a byte that has a LOG, and the operand check stops GF.LOG 0. -/
theorem gfLogReadsTheTable : Obligations.GfLogReadsTheTable := by
  refine ⟨fun a => decode_ofNat (encode_gfLog a) rfl, fun a s he ha => ?_,
    fun s he => exec_operandError rfl he rfl rfl, fun bc a hbc hbc' ha => ?_, by decide⟩
  · obtain ⟨i, hlog⟩ := exists_logAt ha
    refine ⟨i, hlog, ?_⟩
    rw [exec_effect rfl he rfl (by simpa [operandError] using ha), effectOf, hlog]
    rfl
  · exact illegalAt_of_mask (r := ⟨0x11, "GF.LOG", 0x11000000, 0xFFFFFF00⟩) (k := 8) (by simp [opcodeMap])
      (by decide) (by decide) (by simp only; omega) (by omega)

/-- Settles O28: no check stops GF.MUL. -/
theorem gfMulReturnsTheProduct : Obligations.GfMulReturnsTheProduct := by
  refine ⟨fun a b => decode_ofNat (encode_gfMul a b) rfl, fun a b s he => exec_effect rfl he rfl rfl,
    fun c ba hc hc' hba => ?_, fun b => ⟨gfMul_zero_left b, gfMul_zero_right b, gfMul_one_left b⟩,
    by decide⟩
  exact illegalAt_of_mask (r := ⟨0x12, "GF.MUL", 0x12000000, 0xFFFF0000⟩) (k := 16) (by simp [opcodeMap])
    (by decide) (by decide) (by simp only; omega) (by omega)

end Sys2Proof.Machine
end

section
/-! PROOFS. The polynomials of the Reed-Solomon engine (R120 to R122). Evaluation at a point is linear over xor, so
GENPOLY vanishes at the root of each of its factors; a round of the division is linear too, and at a root of the
generator it changes no value. -/

namespace Sys2Proof.Machine

/-! Lists of coefficients -/

theorem zipWith_xor_self (p : List Byte) : List.zipWith (· ^^^ ·) p p = List.replicate p.length 0 := by
  simp [List.zipWith_self]

theorem zipWith_xor_replicate_zero (p : List Byte) :
    List.zipWith (· ^^^ ·) p (List.replicate p.length 0) = p := by
  induction p with
  | nil => rfl
  | cons c p ih => simpa [List.replicate_succ] using ih

theorem zipWith_replicate_zero_xor (p : List Byte) :
    List.zipWith (· ^^^ ·) (List.replicate p.length 0) p = p := by
  rw [List.zipWith_comm_of_comm BitVec.xor_comm, zipWith_xor_replicate_zero]

theorem xor_gfMul (a b c : Byte) : gfMul (a ^^^ b) c = gfMul a c ^^^ gfMul b c := by
  rw [gfMul_comm, gfMul_xor, gfMul_comm c a, gfMul_comm c b]

/-- A list scaled by a sum is the sum of the list scaled by either. -/
theorem map_gfMul_xor (g : List Byte) (c d : Byte) :
    (g.map fun a => gfMul a (c ^^^ d)) =
      List.zipWith (· ^^^ ·) (g.map fun a => gfMul a c) (g.map fun a => gfMul a d) := by
  simp [gfMul_xor, List.zipWith_map, List.zipWith_self]

/-! Evaluation at a point -/

section Evaluation

variable (x : Byte)

@[simp] theorem polyEval_nil : polyEval [] x = 0 := rfl

/-- Behind a polynomial one more coefficient is Horner's round. -/
theorem polyEval_concat (p : List Byte) (c : Byte) :
    polyEval (p ++ [c]) x = gfMul (polyEval p x) x ^^^ c := by
  simp [polyEval]

/-- A leading zero changes no value. -/
@[simp] theorem polyEval_zero_cons (p : List Byte) : polyEval (0#8 :: p) x = polyEval p x := by
  simp [polyEval]

theorem polyEval_replicate_zero_append (n : Nat) (p : List Byte) :
    polyEval (List.replicate n 0 ++ p) x = polyEval p x := by
  induction n with
  | zero => rfl
  | succ n ih => simpa [List.replicate_succ] using ih

/-- Zeros behind a polynomial keep its roots. -/
theorem polyEval_append_replicate_zero {p : List Byte} (n : Nat) (h : polyEval p x = 0) :
    polyEval (p ++ List.replicate n 0) x = 0 := by
  induction n with
  | zero => simpa using h
  | succ n ih => rw [List.replicate_succ', ← List.append_assoc, polyEval_concat, ih]; simp

/-- Evaluation is linear. -/
theorem polyEval_zipWith_xor (p : List Byte) : ∀ q : List Byte, p.length = q.length →
    polyEval (List.zipWith (· ^^^ ·) p q) x = polyEval p x ^^^ polyEval q x := by
  induction p using List.reverseRecOn with
  | nil => intro q hq; simp [List.length_eq_zero_iff.mp hq.symm]
  | append_singleton p c ih =>
    intro q hq
    cases q using List.reverseRecOn with
    | nil => simp at hq
    | append_singleton q d =>
      have hpq : p.length = q.length := by simpa using hq
      rw [List.zipWith_append hpq, List.zipWith_cons_cons, List.zipWith_nil_left]
      simp only [polyEval_concat, ih q hpq, xor_gfMul]
      ac_rfl

/-- A scaled polynomial has the scaled value. -/
theorem polyEval_map_gfMul (p : List Byte) (r : Byte) :
    polyEval (p.map fun c => gfMul c r) x = gfMul (polyEval p x) r := by
  induction p using List.reverseRecOn with
  | nil => simp
  | append_singleton p c ih =>
    rw [List.map_append, List.map_singleton, polyEval_concat, polyEval_concat, ih, xor_gfMul,
      gfMul_assoc, gfMul_assoc, gfMul_comm r x]

/-- `timesRoot` multiplies by `(x xor r)` (R120). -/
theorem polyEval_timesRoot (g : List Byte) (r : Byte) :
    polyEval (timesRoot g r) x = gfMul (polyEval g x) (x ^^^ r) := by
  rw [timesRoot, polyEval_zipWith_xor _ _ _ (by simp), polyEval_concat, gfMul_xor]
  simp [polyEval_map_gfMul]

end Evaluation

/-! GENPOLY -/

/-- GENPOLY is monic (R120). -/
theorem exists_genPoly_eq_cons (e : Nat) : ∃ g, genPoly e = 1 :: g := by
  induction e with
  | zero => exact ⟨[], rfl⟩
  | succ e ih =>
    obtain ⟨g, hg⟩ := ih
    simp [genPoly, timesRoot, hg]

/-- Every factor's root is a root of GENPOLY (R120, R122 (c)). -/
theorem polyEval_genPoly {e i : Nat} (h : i < e) : polyEval (genPoly e) (expAt i) = 0 := by
  induction e with
  | zero => omega
  | succ e ih =>
    rw [genPoly, polyEval_timesRoot]
    obtain rfl | hlt : i = e ∨ i < e := by omega
    · simp
    · simp [ih hlt]

/-- Settles O34: the roots factor by factor; the coefficients of the twenty polynomials in scope by computation. -/
theorem generatorHasItsRoots : Obligations.GeneratorHasItsRoots := by
  refine ⟨fun e => ⟨genPoly_length e, ?_, fun _ => polyEval_genPoly⟩, by decide +kernel⟩
  obtain ⟨g, hg⟩ := exists_genPoly_eq_cons e
  simp [hg]

/-! The division -/

@[simp] theorem xorFront_nil (w : List Byte) : xorFront w [] = w := by cases w <;> rfl

/-- `xorFront` adds the shorter list with zeros behind it (R121). -/
theorem xorFront_eq_zipWith (w : List Byte) : ∀ a : List Byte, a.length ≤ w.length →
    xorFront w a = List.zipWith (· ^^^ ·) w (a ++ List.replicate (w.length - a.length) 0) := by
  induction w with
  | nil => intro a ha; simp_all
  | cons c w ih =>
    intro a ha
    cases a with
    | nil => simpa using (zipWith_xor_replicate_zero (c :: w)).symm
    | cons b a => simp [xorFront, ih a (by simpa using ha)]

theorem xorFront_replicate_zero (w : List Byte) : ∀ n, xorFront w (List.replicate n 0) = w := by
  induction w with
  | nil => intro n; cases n <;> rfl
  | cons c w ih =>
    intro n
    cases n with
    | zero => rfl
    | succ n => simpa [List.replicate_succ, xorFront] using ih n

/-- `xorFront` is linear in both lists. -/
theorem xorFront_zipWith_xor (v : List Byte) : ∀ w a b : List Byte, v.length = w.length →
    a.length = b.length →
    xorFront (List.zipWith (· ^^^ ·) v w) (List.zipWith (· ^^^ ·) a b) =
      List.zipWith (· ^^^ ·) (xorFront v a) (xorFront w b) := by
  induction v with
  | nil => intro w a b _ _; cases a <;> cases b <;> simp [xorFront]
  | cons c v ih =>
    intro w a b hw hab
    cases w with
    | nil => simp at hw
    | cons d w =>
      cases a with
      | nil => simp [List.length_eq_zero_iff.mp hab.symm]
      | cons p a =>
        cases b with
        | nil => simp at hab
        | cons q b =>
          simp only [List.zipWith_cons_cons, xorFront, ih w a b (by simpa using hw) (by simpa using hab)]
          congr 1
          ac_rfl

/-- A round of the division, whether or not the coefficient is zero: scaled by 0 the generator adds nothing. -/
theorem divide_succ_cons (g : List Byte) (k : Nat) (c : Byte) (rest : List Byte) :
    divide g (k + 1) (c :: rest) =
      divide g k (xorFront (c :: rest) (g.map fun a => gfMul a c)).tail := by
  rw [divide]
  split
  case isTrue hc =>
    have hzero : (g.map fun a => gfMul a c) = List.replicate g.length 0 := by
      simp [hc, List.map_const']
    rw [hzero, xorFront_replicate_zero, List.tail_cons]
  case isFalse => rfl

/-- The division is linear over lists of equal length (R122 (d)). -/
theorem divide_zipWith_xor (g : List Byte) (k : Nat) : ∀ v w : List Byte, v.length = w.length →
    divide g k (List.zipWith (· ^^^ ·) v w) = List.zipWith (· ^^^ ·) (divide g k v) (divide g k w) := by
  induction k with
  | zero => intro v w _; rfl
  | succ k ih =>
    intro v w hvw
    cases v with
    | nil => simp [List.length_eq_zero_iff.mp hvw.symm, divide]
    | cons c v =>
      cases w with
      | nil => simp at hvw
      | cons d w =>
        rw [List.zipWith_cons_cons, divide_succ_cons, divide_succ_cons, divide_succ_cons,
          map_gfMul_xor, ← List.zipWith_cons_cons (f := (· ^^^ ·)),
          xorFront_zipWith_xor _ _ _ _ hvw (by simp), List.tail_zipWith, ih]
        simpa [xorFront_length] using hvw

/-- A monic generator scaled by the leading coefficient cancels it (R122 (a)). -/
theorem xorFront_monic (g : List Byte) (c : Byte) (rest : List Byte) :
    xorFront (c :: rest) ((1 :: g).map fun a => gfMul a c) =
      0#8 :: (xorFront (c :: rest) ((1 :: g).map fun a => gfMul a c)).tail := by
  simp [xorFront]

/-- At a root of the monic generator the division changes no value (R122 (b)). -/
theorem polyEval_divide {g : List Byte} {x : Byte} (hg : polyEval (1 :: g) x = 0) (k : Nat) :
    ∀ work : List Byte, k + g.length ≤ work.length →
      polyEval (divide (1 :: g) k work) x = polyEval work x := by
  induction k with
  | zero => intro work _; rfl
  | succ k ih =>
    intro work hlen
    cases work with
    | nil => simp at hlen
    | cons c rest =>
      have hroot : polyEval ((1 :: g).map fun a => gfMul a c) x = 0 := by
        rw [polyEval_map_gfMul, hg]
        exact gfMul_zero_left c
      rw [List.length_cons] at hlen
      rw [divide_succ_cons, ih _ (by simp [xorFront_length]; omega), ← polyEval_zero_cons,
        ← xorFront_monic, xorFront_eq_zipWith _ _ (by simp; omega),
        polyEval_zipWith_xor _ _ _ (by simp; omega), polyEval_append_replicate_zero _ _ hroot]
      exact BitVec.xor_zero

/-! RSREM -/

theorem rsRem_zipWith_xor {a b : List Byte} (e : Nat) (h : a.length = b.length) :
    rsRem (List.zipWith (· ^^^ ·) a b) e = List.zipWith (· ^^^ ·) (rsRem a e) (rsRem b e) := by
  have hzeros : List.zipWith (· ^^^ ·) (List.replicate e (0 : Byte)) (List.replicate e 0) =
      List.replicate e 0 := by
    simp
  rw [rsRem, rsRem, rsRem, ← h, List.length_zipWith, ← h, Nat.min_self,
    ← divide_zipWith_xor _ _ _ _ (by simp [h]), List.zipWith_append h, hzeros]

/-- The sum of a list with itself is zeros, and so is its remainder (R122 (d)). -/
theorem rsRem_replicate_zero (k e : Nat) : rsRem (List.replicate k 0) e = List.replicate e 0 := by
  have hself := zipWith_xor_self (List.replicate k 0)
  rw [List.length_replicate] at hself
  rw [← hself, rsRem_zipWith_xor e rfl, zipWith_xor_self, rsRem_length]

/-- Data followed by their remainder vanish at the roots of GENPOLY (R122 (c)). -/
theorem polyEval_append_rsRem (data : List Byte) {e i : Nat} (h : i < e) :
    polyEval (data ++ rsRem data e) (expAt i) = 0 := by
  obtain ⟨g, hg⟩ := exists_genPoly_eq_cons e
  have hlen : g.length = e := by simpa [hg] using genPoly_length e
  have hrem : polyEval (rsRem data e) (expAt i) = polyEval (data ++ List.replicate e 0) (expAt i) := by
    rw [rsRem, hg, polyEval_divide (hg ▸ polyEval_genPoly h) _ _ (by simp [hlen])]
  have hsum : data ++ rsRem data e = List.zipWith (· ^^^ ·) (data ++ List.replicate e 0)
      (List.replicate data.length 0 ++ rsRem data e) := by
    have hzeros := zipWith_replicate_zero_xor (rsRem data e)
    rw [rsRem_length] at hzeros
    rw [List.zipWith_append (by simp), zipWith_xor_replicate_zero, hzeros]
  rw [hsum, polyEval_zipWith_xor _ _ _ (by simp [rsRem_length]), polyEval_replicate_zero_append, hrem]
  exact BitVec.xor_self

/-- Settles O36: every round of the division is linear. -/
theorem remainderIsLinear : Obligations.RemainderIsLinear :=
  fun a _ e h => ⟨rsRem_length a e, rsRem_zipWith_xor e h⟩

end Sys2Proof.Machine
end

section
/-! PROOFS. The commands CW.WR, CW.RD, RS.GEN, G.RD and RS.ENC (R123 to R129): the words of formats A and AB that the
must-be-zero bits exclude, what the codeword buffer and the generator file hold at an index, and each command's
encoding, effect and faults. -/

namespace Sys2Proof.Machine

variable {s : State}

/-! Words of formats A and AB -/

/-- A row's word with a one in the fields C and B of format A is illegal (R81). -/
theorem illegalAt_formatA {r : OpcodeRow} (hr : r ∈ opcodeMap) (hmask : r.mask = 0xFFFFFF00)
    {base cb a : Nat} (hbase : base = r.op * 2 ^ 24) (hpos : 0 < cb) (hcb : cb < 65536) (ha : a < 256) :
    IllegalAt (base + cb * 256 + a) :=
  illegalAt_of_mask (k := 8) hr (hmask.trans (by decide)) (by decide) (by omega) (by omega)

/-- A row's word with a one in the field C of format AB is illegal (R81). -/
theorem illegalAt_formatAB {r : OpcodeRow} (hr : r ∈ opcodeMap) (hmask : r.mask = 0xFFFF0000)
    {base c ba : Nat} (hbase : base = r.op * 2 ^ 24) (hpos : 0 < c) (hc : c < 256) (hba : ba < 65536) :
    IllegalAt (base + c * 65536 + ba) :=
  illegalAt_of_mask (k := 16) hr (hmask.trans (by decide)) (by decide) (by omega) (by omega)

theorem encode_cwWr (idx : Nat) (val : Byte) :
    encode (.cwWr idx val) = BitVec.ofNat 32 (0x20000000 + val.toNat * 256 + idx) :=
  congrArg (BitVec.ofNat 32) (by omega)

theorem encode_cwRd (idx : Nat) : encode (.cwRd idx) = BitVec.ofNat 32 (0x21000000 + idx) :=
  congrArg (BitVec.ofNat 32) (by omega)

theorem encode_rsGen (e : Nat) : encode (.rsGen e) = BitVec.ofNat 32 (0x22000000 + e) :=
  congrArg (BitVec.ofNat 32) (by omega)

theorem encode_gRd (j : Nat) : encode (.gRd j) = BitVec.ofNat 32 (0x23000000 + j) :=
  congrArg (BitVec.ofNat 32) (by omega)

theorem encode_rsEnc (k e : Nat) :
    encode (.rsEnc k e) = BitVec.ofNat 32 (0x24000000 + e * 256 + k) :=
  congrArg (BitVec.ofNat 32) (by omega)

/-! The codeword buffer -/

theorem readCw_eq_getElem (j : Fin 100) (s : State) : readCw j.val s = s.cwbuf[j] := by
  simp [readCw]

theorem readCw_writeCw {k : Nat} (hk : k ≤ 99) (v : Byte) (s : State) : readCw k (writeCw k v s) = v := by
  rw [readCw_eq_getElem ⟨k, by omega⟩, Fin.getElem_fin, writeCw_get, if_pos rfl]

/-- With ERR = 0, CW.RD of a byte of the buffer (R126). -/
theorem exec_cwRd_of_le {idx : Nat} (he : s.err = false) (h : idx ≤ 99) :
    exec (.cwRd idx) s = .next (setRes ((readCw idx s).setWidth 32) s) :=
  exec_effect rfl he rfl (if_neg (by omega))

/-- With ERR = 0, CW.WR of a byte of the buffer (R125). -/
theorem exec_cwWr_of_le {idx : Nat} (val : Byte) (he : s.err = false) (h : idx ≤ 99) :
    exec (.cwWr idx val) s = .next (writeCw idx val s) :=
  exec_effect rfl he rfl (if_neg (by omega))

/-- Settles O29: no check stops CW.WR up to 99, and above its operand check does. -/
theorem cwWrWritesOneByte : Obligations.CwWrWritesOneByte := by
  refine ⟨fun idx hidx val => decode_ofNat (encode_cwWr idx val) (by simp [Instr.wellFormed, hidx]),
    fun idx val s he h => ⟨_, exec_cwWr_of_le val he h, rfl, fun j => ?_⟩,
    fun idx val s he h => exec_operandError rfl he rfl (if_pos h), fun c ba => ?_⟩
  · rw [Fin.getElem_fin, writeCw_get]
    simp only [eq_comm, Fin.getElem_fin]
  · exact illegalAt_formatAB (r := ⟨0x20, "CW.WR", 0x20000000, 0xFFFF0000⟩) (by simp [opcodeMap]) rfl rfl

/-- Settles O30: no check stops CW.RD up to 99, and above its operand check does. -/
theorem cwRdReturnsOneByte : Obligations.CwRdReturnsOneByte := by
  refine ⟨fun idx hidx => decode_ofNat (encode_cwRd idx) (by simp [Instr.wellFormed, hidx]),
    fun j s he => ?_, fun idx s he h => exec_operandError rfl he rfl (if_pos h),
    fun bc idx => ?_, fun j => Vector.getElem_replicate j.isLt, fun s he => ?_⟩
  · rw [exec_cwRd_of_le he (by omega), readCw_eq_getElem]
    rfl
  · exact illegalAt_formatA (r := ⟨0x21, "CW.RD", 0x21000000, 0xFFFFFF00⟩) (by simp [opcodeMap]) rfl rfl
  · refine ⟨_, exec_cwWr_of_le _ he (by decide), ?_⟩
    rw [exec_cwRd_of_le (by simpa using he) (by decide), readCw_writeCw (by decide)]
    rfl

/-! The generator file -/

/-- With ERR = 0, RS.GEN of an ECC length in scope (R127). -/
theorem exec_rsGen_of_le {e : Nat} (he : s.err = false) (h₁ : 1 ≤ e) (h₂ : e ≤ 20) :
    exec (.rsGen e) s = .next (setResNat e (loadG e (genPoly e) s)) :=
  exec_effect rfl he rfl (if_neg (by omega))

/-- With ERR = 0, G.RD of a loaded coefficient (R128). -/
theorem exec_gRd_of_le {j : Nat} (he : s.err = false) (hge : s.ge ≠ 0) (hj : j ≤ s.ge.toNat) :
    exec (.gRd j) s = .next (setRes ((readG j s).setWidth 32) s) :=
  exec_effect rfl he rfl (by simpa [operandError, hj] using hge)

theorem loadG_ge_toNat {e : Nat} (h : e ≤ 20) (p : List Byte) (s : State) :
    (loadG e p s).ge.toNat = e := by
  rw [loadG_ge, BitVec.toNat_ofNat]
  omega

/-- The loaded file: GENPOLY(e) and zeros behind it (R123). -/
theorem loadG_genPoly_get (e : Nat) (s : State) (j : Fin 21) :
    (loadG e (genPoly e) s).g[j] = if j.val ≤ e then (genPoly e).getD j.val 0 else 0 := by
  rw [Fin.getElem_fin]
  simp only [loadG_g, padVector_get]
  split
  case isTrue => rfl
  case isFalse h => exact List.getD_eq_default _ _ (by rw [genPoly_length]; omega)

theorem readG_eq_getElem (j : Fin 21) (s : State) : readG j.val s = s.g[j] := by
  simp [readG]

/-- A file that is loaded as R28 says holds a monic polynomial. -/
theorem readG_zero_of_generatorInv (h : GeneratorInv s) (hge : s.ge ≠ 0) : readG 0 s = 1 := by
  obtain ⟨-, hg⟩ := h
  obtain ⟨p, hp⟩ := exists_genPoly_eq_cons s.ge.toNat
  rw [if_neg hge, hp] at hg
  have hhead : s.g.toList[0]? = some 1 := by rw [hg]; rfl
  rw [readG, ← Vector.getElem?_toList, hhead]
  rfl

/-- Settles O31: no check stops RS.GEN for 1 to 20, and else its operand check does. -/
theorem rsGenLoadsTheGenerator : Obligations.RsGenLoadsTheGenerator := by
  refine ⟨fun e he => decode_ofNat (encode_rsGen e) (by simp [Instr.wellFormed, he]),
    fun e s he h₁ h₂ => ⟨_, exec_rsGen_of_le he h₁ h₂, rfl, loadG_ge_toNat h₂ (genPoly e) s,
      loadG_genPoly_get e s⟩,
    fun e s he h => exec_operandError rfl he rfl (if_pos h),
    fun bc e => ?_, by decide⟩
  exact illegalAt_formatA (r := ⟨0x22, "RS.GEN", 0x22000000, 0xFFFFFF00⟩) (by simp [opcodeMap]) rfl rfl

/-- Settles O32: no check stops G.RD of a loaded coefficient, and else its operand check does. -/
theorem gRdReturnsOneCoefficient : Obligations.GRdReturnsOneCoefficient := by
  refine ⟨fun j hj => decode_ofNat (encode_gRd j) (by simp [Instr.wellFormed, hj]),
    fun j s he hge hj => ?_, fun j s he h => exec_operandError rfl he rfl (if_pos h),
    fun bc j => ?_, fun s hinv he hge => ?_, fun s he => ?_⟩
  · rw [exec_gRd_of_le he hge hj, readG_eq_getElem]
    rfl
  · exact illegalAt_formatA (r := ⟨0x23, "G.RD", 0x23000000, 0xFFFFFF00⟩) (by simp [opcodeMap]) rfl rfl
  · rw [exec_gRd_of_le he hge (Nat.zero_le _), readG_zero_of_generatorInv hinv hge]
    rfl
  · refine ⟨_, exec_rsGen_of_le he (by decide) (by decide), ?_⟩
    have hread : readG 1 (setResNat 7 (loadG 7 (genPoly 7) s)) = 127 := by
      change (padVector 21 (genPoly 7) 0)[1]?.getD 0 = 127
      decide
    rw [exec_gRd_of_le (by simpa using he) (by simp) (by simp), hread]
    rfl

/-! RS.ENC -/

/-- With ERR = 0, RS.ENC of a block in scope (R129). -/
theorem exec_rsEnc_of_le {k e : Nat} (he : s.err = false) (h₁ : 1 ≤ e) (h₂ : e ≤ 20) (h₃ : k + e ≤ 100) :
    exec (.rsEnc k e) s = .next (encodeBlock k e s) :=
  exec_effect rfl he rfl (if_neg (by omega))

/-- CWBUF after RS.ENC: the remainder behind the k data codewords (R124, R129). -/
theorem encodeBlock_cwbuf (k e : Nat) (s : State) :
    (encodeBlock k e s).cwbuf = (writeCwRun k (rsRem (cwStream k s) e) s).cwbuf := by
  rw [encodeBlock_eq]

/-- A run of writes puts its bytes behind the codewords before it (R129). -/
theorem cwStream_writeCwRun_append {k : Nat} (bs : List Byte) (h : k + bs.length ≤ 100) (s : State) :
    cwStream (k + bs.length) (writeCwRun k bs s) = cwStream k s ++ bs := by
  refine List.ext_getElem (by simp [cwStream]; omega) fun j hj _ => ?_
  have hk : min k 100 = k := by omega
  have hj : j < k + bs.length ∧ j < 100 := by simpa [cwStream] using hj
  by_cases hjk : j < k
  · simp [cwStream, writeCwRun_get, hk, hjk, hjk.not_ge]
  · have hbs : j - k < bs.length := by omega
    simp [cwStream, writeCwRun_get, hk, Nat.le_of_not_lt hjk, hj.1, hbs]

/-- A run of writes leaves the codewords behind it (R129). -/
theorem drop_writeCwRun (k : Nat) (bs : List Byte) (s : State) :
    (writeCwRun k bs s).cwbuf.toList.drop (k + bs.length) = s.cwbuf.toList.drop (k + bs.length) := by
  refine List.ext_getElem (by simp) fun j hj _ => ?_
  have hj : k + bs.length + j < 100 := by simp at hj; omega
  simp [writeCwRun_get]

/-- Settles O33: no check stops RS.ENC of a block in scope, and else its operand check does. -/
theorem rsEncWritesTheRemainder : Obligations.RsEncWritesTheRemainder := by
  refine ⟨fun k hk e he => decode_ofNat (encode_rsEnc k e) (by simp [Instr.wellFormed, hk, he]),
    fun k e s he h₁ h₂ h₃ => ?_,
    fun k e s he h => exec_operandError rfl he rfl (if_pos h),
    fun c ba => ?_, rsRem_replicate_zero 0, rsRem_replicate_zero, by decide⟩
  · refine ⟨_, exec_rsEnc_of_le he h₁ h₂ h₃, ?_, ?_, ?_, rsRem_length _ _, fun j => ?_⟩
    · rw [encodeBlock_eq]
      rfl
    · rw [encodeBlock_eq]
      exact loadG_ge_toNat h₂ (genPoly e) s
    · rw [encodeBlock_eq]
      exact loadG_genPoly_get e s
    · rw [Fin.getElem_fin]
      simp only [encodeBlock_cwbuf, writeCwRun_get, rsRem_length]
      rfl
  · exact illegalAt_formatAB (r := ⟨0x24, "RS.ENC", 0x24000000, 0xFFFF0000⟩) (by simp [opcodeMap]) rfl rfl

/-- Settles O35: the block is its data followed by their remainder. -/
theorem rsEncLeavesACodeword : Obligations.RsEncLeavesACodeword := by
  intro k e s he h₁ h₂ h₃
  have hlen := rsRem_length (cwStream k s) e
  refine ⟨_, exec_rsEnc_of_le he h₁ h₂ h₃, fun i hi => ?_, ?_, ?_⟩
  · have hblock := cwStream_writeCwRun_append (rsRem (cwStream k s) e) (by rwa [hlen]) s
    rw [hlen] at hblock
    rw [encodeBlock_cwbuf, ← cwStream, hblock, polyEval_append_rsRem _ hi]
  · rw [encodeBlock_cwbuf]
    exact cwStream_writeCwRun k _ s
  · have hdrop := drop_writeCwRun k (rsRem (cwStream k s) e) s
    rwa [hlen, ← encodeBlock_cwbuf] at hdrop

end Sys2Proof.Machine
end

section
/-! PROOFS. The matrix builder (R140 to R150): the function patterns cell by cell, the commands MX.BUILD and MOD.RD, and
that no command but FMT.PUT writes a reserved cell after MX.BUILD. -/

namespace Sys2Proof.Machine

variable {s t : State}

/-! The function patterns cell by cell -/

/-- The n x n grid with `f x y` in column x of row y. -/
def Grid.tabulate {α : Type} (n : Nat) (f : Nat → Nat → α) : Grid α :=
  (List.range n).map fun y => (List.range n).map fun x => f x y

theorem Grid.get?_tabulate {α : Type} {n x y : Nat} (f : Nat → Nat → α) (hx : x < n) (hy : y < n) :
    (Grid.tabulate n f).get? x y = some (f x y) := by
  simp [Grid.get?, Grid.tabulate, hx, hy]

/-- The two grids that the closed form gives: reserved where it gives a module, Unset elsewhere. -/
def patternCanvas (v : Nat) : Canvas where
  mat := Grid.tabulate (17 + 4 * v) fun x y => (patternCell v x y).getD .unset
  rsv := Grid.tabulate (17 + 4 * v) fun x y => (patternCell v x y).isSome

/-- The patterns placed in QV's order are those of the closed form (R142 to R147), by evaluation of each version. -/
theorem functionPatterns_eq_patternCanvas : ∀ v ∈ [1, 2, 3, 4], functionPatterns v = patternCanvas v := by
  have h : ∀ v ∈ [1, 2, 3, 4],
      settleCanvas (functionPatterns v) (fun c => decide (c = patternCanvas v)) = true := by
    decide +kernel
  intro v hv
  simpa only [settleCanvas_eq, decide_eq_true_eq] using h v hv

section Cells

variable {v x y : Nat} (hv : v ∈ [1, 2, 3, 4]) (hx : x < 17 + 4 * v) (hy : y < 17 + 4 * v)
include hv hx hy

theorem functionPatterns_mat_get? :
    (functionPatterns v).mat.get? x y = some ((patternCell v x y).getD .unset) := by
  rw [functionPatterns_eq_patternCanvas v hv]
  exact Grid.get?_tabulate _ hx hy

theorem functionPatterns_rsv_get? :
    (functionPatterns v).rsv.get? x y = some (patternCell v x y).isSome := by
  rw [functionPatterns_eq_patternCanvas v hv]
  exact Grid.get?_tabulate _ hx hy

end Cells

/-- Settles O39: the grids' shape from the fit of the two grids, the cells and the counts from the closed form. -/
theorem functionPatternsCellByCell : Obligations.FunctionPatternsCellByCell := by
  have map_eq {β : Type} (f : Canvas → β) :
      [1, 2, 3, 4].map (fun v => f (functionPatterns v)) = [1, 2, 3, 4].map fun v => f (patternCanvas v) :=
    List.map_congr_left fun v hv => by rw [functionPatterns_eq_patternCanvas v hv]
  refine ⟨fun v hv => ⟨(functionPatterns_fits v).mat_wf, (functionPatterns_fits v).rsv_wf,
      fun x hx y hy => ⟨functionPatterns_mat_get? hv hx hy, functionPatterns_rsv_get? hv hx hy⟩⟩,
    ?_, ?_, ?_⟩
  · rw [map_eq fun c => c.rsv.flatten.count true]
    decide +kernel
  · rw [map_eq fun c => c.mat.flatten.count .dark]
    decide +kernel
  · rw [map_eq fun c => c.mat.flatten.count .unset]
    decide +kernel

/-! MX.BUILD -/

theorem encode_mxBuild (v : Nat) : encode (.mxBuild v) = BitVec.ofNat 32 (0x30000000 + v) :=
  congrArg (BitVec.ofNat 32) (by omega)

/-- With ERR = 0, MX.BUILD of a version in scope, in any phase (R140). -/
theorem exec_mxBuild_of_le {v : Nat} (he : s.err = false) (h₁ : 1 ≤ v) (h₂ : v ≤ 4) :
    exec (.mxBuild v) s = .next (buildMatrix v s) :=
  exec_effect rfl he rfl (if_neg (by omega))

/-- Settles O38: no check stops MX.BUILD for 1 to 4, and else its operand check does; the built state depends on no
item that MX.BUILD writes. -/
theorem mxBuildStartsAFreshMatrix : Obligations.MxBuildStartsAFreshMatrix := by
  refine ⟨fun v hv => decode_ofNat (encode_mxBuild v) (by simp [Instr.wellFormed, hv]),
    fun v s he h₁ h₂ => ?_, fun v s he h => exec_operandError rfl he rfl (if_pos h), fun bc v => ?_,
    ⟨_, exec_mxBuild_of_le rfl (by decide) (by decide), rfl, rfl⟩⟩
  · obtain ⟨hver, hsize⟩ := buildMatrix_version h₂ s
    exact ⟨_, exec_mxBuild_of_le he h₁ h₂, rfl, hver, hsize, fun p => Vector.getElem_replicate p.isLt,
      exec_mxBuild_of_le he h₁ h₂⟩
  · exact illegalAt_formatA (r := ⟨0x30, "MX.BUILD", 0x30000000, 0xFFFFFF00⟩) (by simp [opcodeMap]) rfl rfl

/-! MOD.RD -/

theorem encode_modRd (x y : Nat) :
    encode (.modRd x y) = BitVec.ofNat 32 (0x31000000 + y * 256 + x) :=
  congrArg (BitVec.ofNat 32) (by omega)

/-- MOD.RD is admitted in every phase with a matrix (R236). -/
theorem admittedIn_modRd (x y : Nat) (hp : s.phase ≠ .idle) :
    admittedIn (.modRd x y) s.phase = true := by
  rw [← hasMatrix_eq]
  simpa [hasMatrix] using hp

/-- With ERR = 0 and a matrix, MOD.RD of a cell that both grids have (R149). -/
theorem exec_modRd_of_get? {x y : Nat} (he : s.err = false) (hp : s.phase ≠ .idle)
    (hx : x < s.size.toNat) (hy : y < s.size.toNat) {m : QrModule} {r : Bool}
    (hm : s.mat.get? x y = some m) (hr : s.rsv.get? x y = some r) :
    exec (.modRd x y) s = .next (setResNat (m.code + 4 * r.toNat) s) := by
  have hword : moduleWord x y s = m.code + 4 * r.toNat := by
    rw [moduleWord, hm, hr]
    cases r <;> rfl
  rw [exec_effect rfl he (admittedIn_modRd x y hp) (if_neg (by omega)), effectOf, hword]

/-- With ERR = 0, MOD.RD of a cell of the matrix that MX.BUILD has just drawn reads the closed form (R149). -/
theorem exec_modRd_buildMatrix {v x y : Nat} (he : s.err = false) (hv : v ∈ [1, 2, 3, 4])
    (hx : x < 17 + 4 * v) (hy : y < 17 + 4 * v) :
    exec (.modRd x y) (buildMatrix v s) = .next (setResNat
      (((patternCell v x y).getD .unset).code + 4 * (patternCell v x y).isSome.toNat) (buildMatrix v s)) := by
  have hsize : (buildMatrix v s).size.toNat = 17 + 4 * v :=
    (buildMatrix_version (by simp at hv; omega) s).2
  exact exec_modRd_of_get? (s := buildMatrix v s) he (by simp) (by rwa [hsize]) (by rwa [hsize])
    (functionPatterns_mat_get? hv hx hy) (functionPatterns_rsv_get? hv hx hy)

/-- Settles O40: a drawn matrix has every cell below SIZE; IDLE fails the phase check and a cell outside the operand
check. -/
theorem modRdReturnsTheModule : Obligations.ModRdReturnsTheModule := by
  refine ⟨fun x hx y hy => decode_ofNat (encode_modRd x y) (by simp [Instr.wellFormed, hx, hy]),
    fun x y s hg he hp hx hy => ?_, fun x y s he hp => ?_,
    fun x y s he hp h => exec_operandError rfl he (admittedIn_modRd x y hp) (if_pos h), fun c ba => ?_,
    rfl, ⟨_, exec_mxBuild_of_le rfl (by decide) (by decide),
      exec_modRd_buildMatrix rfl (by decide) (by decide) (by decide),
      exec_modRd_buildMatrix rfl (by decide) (by decide) (by decide)⟩⟩
  · have hd := hg.drawn hp
    have hrsv : s.rsv.wf s.size.toNat = true := by
      rw [hd.rsv, hd.size]
      exact (functionPatterns_fits _).rsv_wf
    obtain ⟨m, hm⟩ := Option.isSome_iff_exists.mp ((Grid.get?_isSome hd.mat_wf x y).mpr ⟨hx, hy⟩)
    obtain ⟨r, hr⟩ := Option.isSome_iff_exists.mp ((Grid.get?_isSome hrsv x y).mpr ⟨hx, hy⟩)
    exact ⟨m, r, hm, hr, exec_modRd_of_get? he hp hx hy hm hr⟩
  · rw [exec_eq_perform rfl, hp]
    exact perform_badPhase he
  · exact illegalAt_formatAB (r := ⟨0x31, "MOD.RD", 0x31000000, 0xFFFF0000⟩) (by simp [opcodeMap]) rfl rfl

/-! The format cells -/

/-- The cells that FMT.PUT writes are format cells (R147, R191). -/
theorem fmtCells1_mem_formatCells (n : Nat) : ∀ i < 15,
    fmtCells1 Config.fmt1Map i ∈ formatCells n := by
  have h : ∀ i < 15, fmtCells1 Config.fmt1Map i ∈
      [0, 1, 2, 3, 4, 5, 7, 8].map (fun x => (x, 8)) ++ [0, 1, 2, 3, 4, 5, 7, 8].map fun y => (8, y) := by
    decide
  intro i hi
  exact List.mem_append_left _ (List.mem_append_left _ (h i hi))

theorem fmtCells2_mem_formatCells {n i : Nat} (hn : 17 ≤ n) (hi : i < 15) :
    fmtCells2 n i ∈ formatCells n := by
  unfold fmtCells2
  split
  · refine List.mem_append_left _ (List.mem_append_right _ (List.mem_map.mpr ⟨7 - i, ?_, ?_⟩))
    · simp; omega
    · simp; omega
  · refine List.mem_append_right _ (List.mem_map.mpr ⟨i - 8, ?_, ?_⟩)
    · simp; omega
    · simp; omega

theorem lt_of_mem_formatCells {n : Nat} (hn : 9 ≤ n) {p : Nat × Nat} (hp : p ∈ formatCells n) :
    p.1 < n ∧ p.2 < n := by
  simp only [formatCells, List.mem_append, List.mem_map, List.mem_range] at hp
  obtain ((⟨k, hk, rfl⟩ | ⟨k, hk, rfl⟩) | ⟨k, hk, rfl⟩) | ⟨k, hk, rfl⟩ := hp
  · simp at hk ⊢; omega
  · simp at hk ⊢; omega
  · simp; omega
  · simp; omega

/-- FMTWRITE leaves every cell that is no format cell (R191). -/
theorem fmtWrite_get?_other {n : Nat} (hn : 17 ≤ n) (w : BitVec 15) (m : Grid QrModule) {p : Nat × Nat}
    (hp : p ∉ formatCells n) : (fmtWrite n w m).get? p.1 p.2 = m.get? p.1 p.2 := by
  rw [fmtWrite_eq_foldl]
  refine List.foldlRecOn (motive := fun m' : Grid QrModule => m'.get? p.1 p.2 = m.get? p.1 p.2) _ _ rfl
    fun m' h i hi => ?_
  have hi : i < 15 := List.mem_range.mp hi
  exact (writeFmtBit_get?_other w (ne_of_mem_of_not_mem (fmtCells1_mem_formatCells n i hi) hp)
    (ne_of_mem_of_not_mem (fmtCells2_mem_formatCells hn hi) hp)).trans h

/-- The reservation leaves Light in each format cell: a later write of the run writes Light too (R147). -/
theorem reserveFormat_light {n : Nat} (hn : 9 ≤ n) {c : Canvas} (hc : c.mat.wf n = true) {p : Nat × Nat}
    (hp : p ∈ formatCells n) : (reserveFormat n c).mat.get? p.1 p.2 = some .light := by
  obtain ⟨hx, hy⟩ := lt_of_mem_formatCells hn hp
  refine foldl_establishes (P := fun c : Canvas => c.mat.get? p.1 p.2 = some .light)
    (Q := fun c : Canvas => c.mat.wf n = true) hp (fun c h q _ => Grid.wf_set _ _ _ h)
    (fun c h => Grid.get?_set_of_lt h hx hy _) (fun c _ h q _ => ?_) hc
  simp [Canvas.put, Grid.get?_set, h]

/-- MX.BUILD leaves the placeholder Light in every format cell (R147). -/
theorem functionPatterns_format_light {v : Nat} {p : Nat × Nat} (hp : p ∈ formatCells (Config.sizeOf v)) :
    (functionPatterns v).mat.get? p.1 p.2 = some .light :=
  reserveFormat_light (by rw [Config.sizeOf]; omega) (Canvas.Fits.mat_wf <|
    ((((Canvas.fits_fresh _).placeFinders _).placeTiming _).placeAlignments _).put _ _ (by simp)) hp

/-! The function modules are kept -/

/-- A function cell is reserved and no format cell. -/
theorem of_mem_functionCells {p : Nat × Nat} (hp : p ∈ functionCells s) :
    s.rsv.get? p.1 p.2 = some true ∧ p ∉ formatCells s.size.toNat := by
  obtain ⟨-, hp⟩ := List.mem_filter.mp hp
  simpa using hp

/-- A format cell of a drawn matrix is reserved, for MX.BUILD sets it. -/
theorem Drawn.format_reserved (hd : Drawn s) {p : Nat × Nat} (hp : p ∈ formatCells s.size.toNat) :
    s.rsv.get? p.1 p.2 ≠ some false := by
  rw [hd.size] at hp
  rw [hd.rsv, ne_eq, ← (functionPatterns_fits _).unset_iff, functionPatterns_format_light hp]
  simp

/-- Entries at the free cells leave every reserved cell (R160, R171). -/
theorem writeEntries_reserved {es : List Entry} {n : Nat} {rsv : Grid Bool}
    (hes : es.map (fun e => (e.x, e.y)) = freeCells n rsv) {x y : Nat} (h : rsv.get? x y ≠ some false)
    (m : Grid QrModule) : (writeEntries es m).get? x y = m.get? x y := by
  refine writeEntries_other es (fun e he hxy => h ?_) m
  have hfree : (e.x, e.y) ∈ freeCells n rsv := hes ▸ List.mem_map.mpr ⟨e, he, rfl⟩
  rw [hxy] at hfree
  simpa using (List.mem_filter.mp hfree).2

theorem placeData_reserved (m : Nat) {x y : Nat} (h : s.rsv.get? x y ≠ some false) :
    (placeData m s).mat.get? x y = s.mat.get? x y :=
  writeEntries_reserved (assignBits_cells _ _) h _

theorem selectMask_reserved (hd : Drawn s) (hdata : hasData s = true) {x y : Nat}
    (h : s.rsv.get? x y ≠ some false) : (selectMask s).mat.get? x y = s.mat.get? x y := by
  rw [selectMask_mat]
  refine writeEntries_reserved (n := s.size.toNat) ?_ h _
  rw [← hd.data hdata, dlistCells, List.map_map]
  rfl

theorem SameMatrix.functionInv (h : SameMatrix s t) (hs : FunctionInv s) : FunctionInv t := by
  simpa only [FunctionInv, functionCells, h.phase, h.ver, h.size, h.mat, h.rsv] using hs

theorem functionInv_reset : FunctionInv State.reset := ⟨fun h => absurd rfl h, fun h => absurd rfl h⟩

theorem functionInv_buildMatrix {v : Nat} (h₂ : v ≤ 4) (s : State) : FunctionInv (buildMatrix v s) := by
  obtain ⟨hver, hsize⟩ := buildMatrix_version h₂ s
  refine ⟨fun _ p _ => by rw [hver, buildMatrix_mat], fun _ _ p hp => ?_⟩
  rw [hsize] at hp
  exact functionPatterns_format_light hp

/-- A command that leaves the reserved cells of a drawn matrix, before DONE, keeps the function modules and the
placeholders. -/
theorem functionInv_of_reserved (hd : Drawn s) (hs : FunctionInv s) (hp : s.phase ≠ .idle)
    (hp' : s.phase ≠ .done) (hver : t.ver = s.ver) (hsize : t.size = s.size) (hrsv : t.rsv = s.rsv)
    (h : ∀ x y, s.rsv.get? x y ≠ some false → t.mat.get? x y = s.mat.get? x y) : FunctionInv t := by
  obtain ⟨hfun, hfmt⟩ := hs
  have hcells : functionCells t = functionCells s := by rw [functionCells, functionCells, hsize, hrsv]
  refine ⟨fun _ p hmem => ?_, fun _ _ p hmem => ?_⟩
  · rw [hcells] at hmem
    rw [h _ _ (by simp [(of_mem_functionCells hmem).1]), hver]
    exact hfun hp p hmem
  · rw [hsize] at hmem
    rw [h _ _ (hd.format_reserved hmem)]
    exact hfmt hp hp' p hmem

/-- FMT.PUT enters DONE and writes format cells only. -/
theorem functionInv_putFormat (hd : Drawn s) (hs : FunctionInv s) (hp : s.phase = .masked) (l : Nat) :
    FunctionInv (putFormat l s) := by
  have hn : 17 ≤ s.size.toNat := by have := hd.size_bounds; omega
  refine ⟨fun _ p hmem => ?_, fun _ h => absurd (putFormat_phase l s) h⟩
  have hmem : p ∈ functionCells s := hmem
  rw [putFormat_mat, fmtWrite_get?_other hn _ _ (of_mem_functionCells hmem).2]
  exact hs.1 (by simp [hp]) p hmem

/-- Settles O55: MX.BUILD sets the function modules and the placeholders, MX.PLACE and MK.SEL write free cells only,
and FMT.PUT format cells only. -/
theorem functionModulesAreKept : Obligations.FunctionModulesAreKept := fun _ _ hg hs h =>
  (step_keeps_drawn (Q := FunctionInv) (fun _ _ hsame => hsame.functionInv) functionInv_reset
    (fun _ s _ h₂ => functionInv_buildMatrix h₂ s)
    (fun m _ hp hd hs => functionInv_of_reserved hd hs (by simp [hp]) (by simp [hp]) rfl rfl rfl
      fun _ _ => placeData_reserved m)
    (fun s hp hd hs => functionInv_of_reserved hd hs (by simp [hp]) (by simp [hp]) (selectMask_ver s)
      (selectMask_size s) (selectMask_rsv s) fun _ _ => selectMask_reserved hd (by simp [hasData, hp]))
    (fun _ hp hd hs => functionInv_putFormat hd hs hp 1) h ⟨hg, hs⟩).2

end Sys2Proof.Machine
end

section
/-! PROOFS. The traversal of the data placer (R160, R161, R164): its column pairs, the cell at every position of the
visit order, and that the free cells are the unreserved cells, each once. -/

namespace Sys2Proof.Machine

/-! Concatenations of blocks of one length -/

theorem getElem?_flatMap_block {α β : Type} {f : α → List β} {c t : Nat} (hf : ∀ a, (f a).length = c) (ht : t < c)
    (l : List α) : ∀ k, (l.flatMap f)[c * k + t]? = l[k]?.bind fun a => (f a)[t]? := by
  induction l with
  | nil => simp
  | cons a l ih =>
    intro k
    rw [List.flatMap_cons]
    cases k with
    | zero => simp [List.getElem?_append_left, hf, ht]
    | succ k =>
      have hi : c * (k + 1) + t = (f a).length + (c * k + t) := by
        rw [hf]
        ring
      rw [hi, List.getElem?_append_right (Nat.le_add_right _ _), Nat.add_sub_cancel_left, ih]
      rfl

theorem length_flatMap_block {α β : Type} {f : α → List β} {c : Nat} (hf : ∀ a, (f a).length = c) (l : List α) :
    (l.flatMap f).length = l.length * c := by
  simp [List.length_flatMap, hf]

/-! The column pairs -/

/-- The right column of the k-th pair: from the right edge in steps of 2, one less from column 6 on (R161). -/
def pairRight (n k : Nat) : Nat := if k < (n - 7) / 2 then n - 1 - 2 * k else n - 2 - 2 * k

/-- The k-th pair and its direction, upward for the even ones (R161). -/
theorem columnPairs_eq_map : ∀ v ∈ [1, 2, 3, 4],
    columnPairs (17 + 4 * v) (17 + 4 * v - 1) true =
      (List.range ((17 + 4 * v - 1) / 2)).map fun k => (pairRight (17 + 4 * v) k, k % 2 == 0) := by
  decide

theorem columnPairs_rights : ∀ v ∈ [1, 2, 3, 4],
    (columnPairs (17 + 4 * v) (17 + 4 * v - 1) true).map Prod.fst =
      ((List.range ((17 + 4 * v - 7) / 2)).map fun k => 17 + 4 * v - 1 - 2 * k) ++ [5, 3, 1] := by
  decide

/-- Each pair lies to the left of the pairs before it (R161). -/
theorem columnPairs_leftward : ∀ v ∈ [1, 2, 3, 4],
    (columnPairs (17 + 4 * v) (17 + 4 * v - 1) true).Pairwise fun p q => q.1 + 1 < p.1 := by
  decide

/-- No pair lacks its left column, and none has column 6 (R161). -/
theorem columnPairs_avoid : ∀ v ∈ [1, 2, 3, 4], ∀ p ∈ columnPairs (17 + 4 * v) (17 + 4 * v - 1) true,
    p.1 ≠ 0 ∧ p.1 ≠ 6 ∧ p.1 - 1 ≠ 6 := by
  decide

/-! The cells of one pair -/

/-- The row of the t-th round of a pair (R160). -/
def pairRow (n : Nat) (upward : Bool) (t : Nat) : Nat := if upward then n - 1 - t else t

theorem pairCells_eq (n : Nat) (pair : Nat × Bool) : pairCells n pair = (List.range n).flatMap fun t =>
    [(pair.1, pairRow n pair.2 t), (pair.1 - 1, pairRow n pair.2 t)] := rfl

theorem pairRow_inj {n t u : Nat} {upward : Bool} (ht : t < n) (hu : u < n)
    (h : pairRow n upward t = pairRow n upward u) : t = u := by
  cases upward
  · exact h
  · simp only [pairRow, if_true] at h
    omega

theorem pairCells_length (n : Nat) (pair : Nat × Bool) : (pairCells n pair).length = 2 * n := by
  rw [pairCells_eq, length_flatMap_block (c := 2) (fun _ => rfl), List.length_range, Nat.mul_comm]

/-- Each round of a pair visits the right cell, then the left one (R160). -/
theorem pairCells_getElem? {n t : Nat} (pair : Nat × Bool) (ht : t < n) :
    (pairCells n pair)[2 * t]? = some (pair.1, pairRow n pair.2 t) ∧
      (pairCells n pair)[2 * t + 1]? = some (pair.1 - 1, pairRow n pair.2 t) := by
  rw [pairCells_eq]
  constructor
  · rw [← Nat.add_zero (2 * t), getElem?_flatMap_block (c := 2) (fun _ => rfl) (by decide)]
    simp [ht]
  · rw [getElem?_flatMap_block (c := 2) (fun _ => rfl) (by decide)]
    simp [ht]

theorem column_of_mem_pairCells {n x y : Nat} {pair : Nat × Bool} (h : (x, y) ∈ pairCells n pair) :
    x = pair.1 ∨ x = pair.1 - 1 := by
  rw [pairCells_eq, List.mem_flatMap] at h
  obtain ⟨t, -, h⟩ := h
  simp only [List.mem_cons, Prod.mk.injEq, List.not_mem_nil, or_false] at h
  exact h.imp And.left And.left

/-- The rounds of a pair lie in different rows. -/
theorem pairCells_nodup {n : Nat} {pair : Nat × Bool} (h : pair.1 ≠ 0) : (pairCells n pair).Nodup := by
  rw [pairCells_eq, List.nodup_flatMap]
  refine ⟨fun t _ => ?_, List.nodup_range.imp_of_mem fun {t u} ht hu htu => ?_⟩
  · simp
    omega
  · have hrow : pairRow n pair.2 t ≠ pairRow n pair.2 u :=
      mt (pairRow_inj (List.mem_range.mp ht) (List.mem_range.mp hu)) htu
    simp [Function.onFun, hrow.symm]

/-! The visit order and the free cells -/

theorem unreserved_of_mem_freeCells {n : Nat} {rsv : Grid Bool} {p : Nat × Nat} (h : p ∈ freeCells n rsv) :
    rsv.get? p.1 p.2 = some false := by
  simpa using (List.mem_filter.mp h).2

section Versions

variable {v : Nat} (hv : v ∈ [1, 2, 3, 4])
include hv

theorem visitOrder_length : (visitOrder (17 + 4 * v)).length = (17 + 4 * v) * (17 + 4 * v - 1) := by
  rw [visitOrder, length_flatMap_block (pairCells_length _), columnPairs_eq_map v hv, List.length_map,
    List.length_range, show (17 + 4 * v - 1) / 2 = 8 + 2 * v by omega,
    show 17 + 4 * v - 1 = 2 * (8 + 2 * v) by omega]
  ring

/-- The cells visited in round `t` of the k-th pair (R160). -/
theorem visitOrder_getElem? {k t : Nat} (hk : k < (17 + 4 * v - 1) / 2) (ht : t < 17 + 4 * v) :
    (visitOrder (17 + 4 * v))[2 * ((17 + 4 * v) * k + t)]? =
        some (pairRight (17 + 4 * v) k, pairRow (17 + 4 * v) (k % 2 == 0) t) ∧
      (visitOrder (17 + 4 * v))[2 * ((17 + 4 * v) * k + t) + 1]? =
        some (pairRight (17 + 4 * v) k - 1, pairRow (17 + 4 * v) (k % 2 == 0) t) := by
  generalize hn : 17 + 4 * v = n at hk ht ⊢
  have hpair : (columnPairs n (n - 1) true)[k]? = some (pairRight n k, k % 2 == 0) := by
    subst hn
    rw [columnPairs_eq_map v hv, List.getElem?_map, List.getElem?_range hk, Option.map_some]
  have hpos : 2 * (n * k + t) = 2 * n * k + 2 * t := by ring
  obtain ⟨hright, hleft⟩ := pairCells_getElem? (pairRight n k, k % 2 == 0) ht
  rw [visitOrder, hpos, Nat.add_assoc, getElem?_flatMap_block (pairCells_length n) (by omega),
    getElem?_flatMap_block (pairCells_length n) (by omega), hpair]
  exact ⟨hright, hleft⟩

/-- The pairs have no column in common, so no cell is visited twice (R161). -/
theorem visitOrder_nodup : (visitOrder (17 + 4 * v)).Nodup := by
  refine List.nodup_flatMap.mpr ⟨fun p hp => pairCells_nodup (columnPairs_avoid v hv p hp).1,
    (columnPairs_leftward v hv).imp fun {p q} hpq => ?_⟩
  rintro ⟨x, y⟩ hp hq
  have := column_of_mem_pairCells hp
  have := column_of_mem_pairCells hq
  omega

theorem mem_visitOrder_iff {x y : Nat} (hx : x < 17 + 4 * v) (hy : y < 17 + 4 * v) :
    (x, y) ∈ visitOrder (17 + 4 * v) ↔ x ≠ 6 := by
  rw [visitOrder, List.mem_flatMap]
  constructor
  · rintro ⟨p, hp, hxy⟩
    obtain ⟨-, h, h'⟩ := columnPairs_avoid v hv p hp
    obtain rfl | rfl := column_of_mem_pairCells hxy
    · exact h
    · exact h'
  · intro hx6
    obtain ⟨p, hp, hxp⟩ := columnPairs_cover v hv x hx hx6
    exact ⟨p, hp, mem_pairCells hxp hy⟩

theorem freeCells_nodup (rsv : Grid Bool) : (freeCells (17 + 4 * v) rsv).Nodup :=
  (visitOrder_nodup hv).filter _

/-- The free cells of a drawn matrix, from the closed form of its patterns. -/
theorem freeCells_functionPatterns : freeCells (17 + 4 * v) (functionPatterns v).rsv =
    freeCells (17 + 4 * v) (patternCanvas v).rsv := by
  rw [functionPatterns_eq_patternCanvas v hv]

theorem freeCells_length : (freeCells (17 + 4 * v) (functionPatterns v).rsv).length = Config.freeModules v := by
  have h : ∀ v ∈ [1, 2, 3, 4],
      (freeCells (17 + 4 * v) (patternCanvas v).rsv).length = Config.freeModules v := by
    decide +kernel
  rw [freeCells_functionPatterns hv, h v hv]

theorem mem_freeCells_iff {x y : Nat} (hx : x < 17 + 4 * v) (hy : y < 17 + 4 * v) :
    (x, y) ∈ freeCells (17 + 4 * v) (functionPatterns v).rsv ↔ (functionPatterns v).rsv.get? x y = some false :=
  ⟨unreserved_of_mem_freeCells, mem_freeCells (by simp at hv; omega) hx hy⟩

end Versions

/-- Settles O41: the positions from the column pairs; no column in two pairs, so no cell twice; column 6 reserved, so
every unreserved cell is visited. -/
theorem traversalVisitsEachFreeCellOnce : Obligations.TraversalVisitsEachFreeCellOnce := by
  refine ⟨fun v hv => ⟨columnPairs_rights v hv, ?_, fun k hk t ht => ?_, visitOrder_length hv,
      visitOrder_nodup hv, fun x hx y hy => mem_visitOrder_iff hv hx hy, freeCells_nodup hv _,
      freeCells_length hv, fun x hx y hy => mem_freeCells_iff hv hx hy⟩, ?_, ?_, ?_⟩
  · rw [columnPairs_eq_map v hv, List.map_map]
    rfl
  · simpa [pairRight, pairRow] using visitOrder_getElem? hv hk ht
  · rw [freeCells_functionPatterns (v := 1) (by decide)]
    decide +kernel
  · rw [freeCells_functionPatterns (v := 2) (by decide)]
    decide +kernel
  · rw [freeCells_functionPatterns (v := 2) (by decide)]
    decide +kernel

end Sys2Proof.Machine
end

section
/-! PROOFS. MX.PLACE and DL.RD (R160 to R163): the stream bits at the free cells, in the matrix and in DLIST. -/

namespace Sys2Proof.Machine

variable {s : State}

/-! The stream bits -/

/-- Bit `i` of the stream: bit `7 - i % 8` of byte `i / 8`, and 0 beyond the stream (R12, R66). -/
theorem streamBits_getD (bytes : List Byte) (i : Nat) :
    (streamBits bytes).getD i false = (bytes.getD (i / 8) 0).getLsbD (7 - i % 8) := by
  have hblock : ∀ b : Byte, ((List.range 8).map fun j => b.getLsbD (7 - j)).length = 8 := by simp
  have ht : i % 8 < 8 := Nat.mod_lt _ (by decide)
  have hget : (streamBits bytes)[i]? = bytes[i / 8]?.map fun b => b.getLsbD (7 - i % 8) := by
    conv_lhs => rw [← Nat.div_add_mod i 8]
    rw [streamBits, getElem?_flatMap_block hblock ht]
    simp [ht, Option.map_eq_bind]
  rw [List.getD_eq_getElem?_getD, List.getD_eq_getElem?_getD, hget]
  cases bytes[i / 8]? <;> simp

/-- The bytes of the stream are those of CWBUF below `m` (R66). -/
theorem cwStream_getD (m j : Nat) (s : State) :
    (cwStream m s).getD j 0 = if j < m then readCw j s else 0 := by
  by_cases hj : j < m
  · simp [cwStream, readCw, hj]
  · simp [cwStream, hj]

/-- The value MX.PLACE m deposits at the i-th free cell (R160, R163). -/
theorem streamBits_cwStream_getD (m i : Nat) (s : State) :
    (streamBits (cwStream m s)).getD i false =
      (decide (i < 8 * m) && (readCw (i / 8) s).getLsbD (7 - i % 8)) := by
  rw [streamBits_getD, cwStream_getD]
  by_cases hi : i < 8 * m
  · rw [if_pos (by omega)]
    simp [hi]
  · rw [if_neg (by omega)]
    simp [hi]

theorem assignBits_cons (p : Nat × Nat) (ps : List (Nat × Nat)) (bs : List Bool) :
    assignBits (p :: ps) bs = ⟨p.1, p.2, bs.getD 0 false⟩ :: assignBits ps bs.tail := by
  cases bs <;> rfl

/-- The i-th entry takes the i-th bit, 0 beyond the bits (R160). -/
theorem assignBits_value (ps : List (Nat × Nat)) : ∀ {bs : List Bool} {i : Nat} {e : Entry},
    (assignBits ps bs)[i]? = some e → e.value = bs.getD i false := by
  induction ps with
  | nil => intro bs i e h; cases h
  | cons p ps ih =>
    intro bs i e h
    rw [assignBits_cons] at h
    cases i with
    | zero => cases h; rfl
    | succ i => rw [ih h]; simp

/-! The written matrix -/

/-- Where no two entries share a cell, each entry's cell holds its value (R160). -/
theorem writeEntries_mem {es : List Entry} {n : Nat} {m : Grid QrModule} (hm : m.wf n = true)
    (hes : (es.map fun e => (e.x, e.y)).Nodup) {e : Entry} (he : e ∈ es) (hx : e.x < n) (hy : e.y < n) :
    (writeEntries es m).get? e.x e.y = some (QrModule.ofBit e.value) := by
  refine foldl_establishes (P := fun m : Grid QrModule => m.get? e.x e.y = some (QrModule.ofBit e.value))
    (Q := fun m : Grid QrModule => m.wf n = true) he (fun m h e' _ => Grid.wf_set _ _ _ h)
    (fun m h => Grid.get?_set_of_lt h hx hy _) (fun m h hold e' he' => ?_) hm
  by_cases hcell : (e'.x, e'.y) = (e.x, e.y)
  · obtain rfl : e' = e := List.inj_on_of_nodup_map hes he' he hcell
    exact Grid.get?_set_of_lt h hx hy _
  · exact (Grid.get?_set_other _ hcell).trans hold

/-- An unreserved cell of a drawn matrix lies in the grid. -/
theorem Drawn.lt_of_unreserved (hd : Drawn s) {x y : Nat} (h : s.rsv.get? x y = some false) :
    x < s.size.toNat ∧ y < s.size.toNat := by
  rw [hd.rsv] at h
  rw [hd.size]
  exact (Grid.get?_isSome (functionPatterns_fits _).rsv_wf x y).mp (by simp [h])

theorem Drawn.version_mem (hd : Drawn s) : s.ver.toNat ∈ [1, 2, 3, 4] := by
  have := hd.version
  simp
  omega

theorem Drawn.freeCells_nodup (hd : Drawn s) : (freeCells s.size.toNat s.rsv).Nodup := by
  rw [hd.size]
  exact Machine.freeCells_nodup hd.version_mem _

theorem Drawn.freeCells_length (hd : Drawn s) :
    (freeCells s.size.toNat s.rsv).length = Config.freeModules s.ver.toNat := by
  rw [hd.size, hd.rsv]
  exact Machine.freeCells_length hd.version_mem

/-- From PLACED on DLIST has FREE_MODULES entries (R161). -/
theorem Drawn.dlist_length (hd : Drawn s) (hdata : hasData s = true) :
    s.dlist.length = Config.freeModules s.ver.toNat := by
  rw [← hd.freeCells_length, ← hd.data hdata, dlistCells, List.length_map]

/-! MX.PLACE -/

theorem encode_mxPlace (m : Nat) : encode (.mxPlace m) = BitVec.ofNat 32 (0x38000000 + m) :=
  congrArg (BitVec.ofNat 32) (by omega)

/-- With ERR = 0 and a fresh matrix, MX.PLACE of a stream that CWBUF can hold (R160). -/
theorem exec_mxPlace_of_le {m : Nat} (he : s.err = false) (hp : s.phase = .built) (hm : m ≤ 100) :
    exec (.mxPlace m) s = .next (placeData m s) :=
  exec_effect rfl he (by rw [hp]; rfl) (if_neg (by omega))

/-- In BUILT DLIST is empty, so it becomes the entries that MX.PLACE makes (R160). -/
theorem placeData_dlist_of_built (hd : Drawn s) (hp : s.phase = .built) (m : Nat) : (placeData m s).dlist =
    assignBits (freeCells s.size.toNat s.rsv) (streamBits (cwStream m s)) := by
  rw [placeData_dlist, hd.noData (by simp [hasData, hp]), List.nil_append]

theorem placeData_mat_of_built (hd : Drawn s) (hp : s.phase = .built) (m : Nat) :
    (placeData m s).mat = writeEntries (placeData m s).dlist s.mat := by
  rw [placeData_dlist_of_built hd hp, placeData_mat]

/-- Settles O42: the placed state is drawn, so DLIST's cells are the free cells, which are different cells of the grid;
its values are the stream bits. -/
theorem mxPlaceRoutesTheStream : Obligations.MxPlaceRoutesTheStream := by
  refine ⟨fun m hm => decode_ofNat (encode_mxPlace m) (by simp [Instr.wellFormed, hm]),
    fun m s hg he hp hm => ?_, fun m s he hp => ?_,
    fun m s he hp hm => exec_operandError rfl he (by rw [hp]; rfl) (if_pos hm), fun bc m => ?_⟩
  · have hd := hg.drawn (by simp [hp])
    have ht := hd.placeData m hp
    have hcells : dlistCells (placeData m s) = freeCells s.size.toNat s.rsv := ht.data rfl
    have hnodup : (dlistCells (placeData m s)).Nodup := hcells ▸ hd.freeCells_nodup
    have hlen : (placeData m s).dlist.length = Config.freeModules s.ver.toNat := ht.dlist_length rfl
    refine ⟨_, exec_mxPlace_of_le he hp hm, ?_, hcells, hlen, fun i e hi => ?_, fun e hmem => ?_,
      fun x y hxy => ?_⟩
    · rw [← hlen]
      rfl
    · rw [placeData_dlist_of_built hd hp] at hi
      rw [assignBits_value _ hi, streamBits_cwStream_getD]
    · have hfree : (e.x, e.y) ∈ freeCells s.size.toNat s.rsv := hcells ▸ List.mem_map_of_mem hmem
      obtain ⟨hx, hy⟩ := hd.lt_of_unreserved (unreserved_of_mem_freeCells hfree)
      rw [placeData_mat_of_built hd hp]
      exact writeEntries_mem hd.mat_wf hnodup hmem hx hy
    · rw [placeData_mat_of_built hd hp]
      exact writeEntries_other _ (fun e hmem hcell => hxy (hcell ▸ List.mem_map_of_mem hmem)) _
  · rw [exec_eq_perform rfl, ← inPhase_eq (p := .built) rfl, inPhase, beq_eq_false_iff_ne.mpr hp]
    exact perform_badPhase he
  · exact illegalAt_formatA (r := ⟨0x38, "MX.PLACE", 0x38000000, 0xFFFFFF00⟩) (by simp [opcodeMap]) rfl rfl

/-! DL.RD -/

theorem encode_dlRd (i : Nat) : encode (.dlRd i) = BitVec.ofNat 32 (0x39000000 + i) :=
  congrArg (BitVec.ofNat 32) (by omega)

/-- DL.RD is admitted in every phase but IDLE and BUILT (R162, R236). -/
theorem admittedIn_dlRd (i : Nat) (h₀ : s.phase ≠ .idle) (h₁ : s.phase ≠ .built) :
    admittedIn (.dlRd i) s.phase = true := by
  cases hp : s.phase with
  | idle => exact absurd hp h₀
  | built => exact absurd hp h₁
  | _ => rfl

/-- Settles O43: no check stops DL.RD of an entry of DLIST; IDLE and BUILT fail the phase check and an index from DLEN
on the operand check. -/
theorem dlRdReturnsOneEntry : Obligations.DlRdReturnsOneEntry := by
  refine ⟨fun i hi => decode_ofNat (encode_dlRd i) (by simp [Instr.wellFormed, hi]),
    fun i e s he h₀ h₁ hi => ?_, fun i s he hp => ?_,
    fun i s he h₀ h₁ hi => exec_operandError rfl he (admittedIn_dlRd i h₀ h₁) (if_pos hi), fun c imm => ?_,
    by decide⟩
  · have hlt : i < s.dlist.length := (List.getElem?_eq_some_iff.mp hi).1
    rw [exec_effect rfl he (admittedIn_dlRd i h₀ h₁) (if_neg (by omega)), effectOf, hi]
    rfl
  · rw [exec_eq_perform rfl]
    obtain hp | hp := hp <;> rw [hp] <;> exact perform_badPhase he
  · exact illegalAt_formatAB (r := ⟨0x39, "DL.RD", 0x39000000, 0xFFFF0000⟩) (by simp [opcodeMap]) rfl rfl

end Sys2Proof.Machine
end

section
/-! PROOFS. The commands of the mask scorer (R171, R178 to R181): the candidate's cells, and what MK.PRED, MK.SCORE and
MK.SEL do with it. -/

namespace Sys2Proof.Machine

variable {s : State}

/-! CANDIDATE(p) -/

/-- Masking an entry keeps its cell (R171). -/
theorem map_maskEntry_cells (p : Nat) (s : State) :
    (s.dlist.map (maskEntry p)).map (fun e => (e.x, e.y)) = dlistCells s := by
  rw [List.map_map]
  rfl

/-- A cell that DLIST does not list holds what MAT holds (R171). -/
theorem candidate_get?_of_notMem (p : Nat) {x y : Nat} (h : (x, y) ∉ dlistCells s) :
    (candidate p s).get? x y = s.mat.get? x y := by
  refine writeEntries_other _ (fun e he hxy => h ?_) _
  rw [← map_maskEntry_cells p, ← hxy]
  exact List.mem_map_of_mem he

/-- DLIST's cells are distinct cells of the grid (R33). -/
theorem Drawn.dlistCells_nodup (hd : Drawn s) (hdata : hasData s = true) : (dlistCells s).Nodup :=
  hd.data hdata ▸ hd.freeCells_nodup

theorem Drawn.unreserved_of_mem_dlistCells (hd : Drawn s) (hdata : hasData s = true) {p : Nat × Nat}
    (h : p ∈ dlistCells s) : s.rsv.get? p.1 p.2 = some false :=
  unreserved_of_mem_freeCells (hd.data hdata ▸ h)

/-- Each cell of DLIST holds its masked original bit (R171). -/
theorem candidate_get?_of_mem (hd : Drawn s) (hdata : hasData s = true) (p : Nat) {e : Entry} (he : e ∈ s.dlist) :
    (candidate p s).get? e.x e.y = some (QrModule.ofBit (xor e.value (maskPred p e.x e.y))) := by
  obtain ⟨hx, hy⟩ := hd.lt_of_unreserved
    (hd.unreserved_of_mem_dlistCells hdata (List.mem_map_of_mem (f := fun e : Entry => (e.x, e.y)) he))
  exact writeEntries_mem (e := maskEntry p e) hd.mat_wf
    (map_maskEntry_cells p s ▸ hd.dlistCells_nodup hdata) (List.mem_map_of_mem he) hx hy

/-- Settles O45: the candidate is MAT with the masked entries written, and DLIST lists no reserved cell. -/
theorem candidateMasksOnlyDataModules : Obligations.CandidateMasksOnlyDataModules := by
  intro p s hg hdata
  have hd := hg.drawn fun hp => by simp [hasData, hp] at hdata
  refine ⟨candidate_wf p hd.mat_wf, fun e he => candidate_get?_of_mem hd hdata p he,
    fun x y h => candidate_get?_of_notMem p h, fun x y hr => candidate_get?_of_notMem p fun h => ?_⟩
  have hfree := hd.unreserved_of_mem_dlistCells hdata h
  simp [hr] at hfree

/-! MK.PRED -/

theorem encode_mkPred (p x y : Nat) :
    encode (.mkPred p x y) = BitVec.ofNat 32 (0x40000000 + p * 65536 + y * 256 + x) :=
  congrArg (BitVec.ofNat 32) (by omega)

/-- With ERR = 0, MK.PRED of a pattern that exists returns the predicate (R179). -/
theorem exec_mkPred_of_le {p : Nat} (x y : Nat) (he : s.err = false) (hp : p ≤ 7) :
    exec (.mkPred p x y) s = .next { s with res := if maskPred p x y then 1 else 0 } := by
  have hrun : exec (.mkPred p x y) s = .next (setResNat (maskPred p x y).toNat s) :=
    exec_effect rfl he rfl (if_neg (by omega))
  rw [hrun]
  cases maskPred p x y <;> rfl

/-- Settles O44: no check stops MK.PRED up to 7, and above its operand check does; the eight predicates are the
model's own tests. -/
theorem mkPredReturnsThePredicate : Obligations.MkPredReturnsThePredicate := by
  refine ⟨fun p hp x hx y hy => decode_ofNat (encode_mkPred p x y) (by simp [Instr.wellFormed, hp, hx, hy]),
    fun p x y s => exec_mkPred_of_le x y, fun p x y s he hp => exec_operandError rfl he rfl (if_pos hp),
    fun x y => ?_, by decide⟩
  and_intros <;> exact beq_iff_eq

/-! MK.SCORE -/

theorem encode_mkScore (p : Nat) : encode (.mkScore p) = BitVec.ofNat 32 (0x41000000 + p) :=
  congrArg (BitVec.ofNat 32) (by omega)

/-- With ERR = 0 in PLACED, MK.SEL runs (R181). -/
theorem exec_mkSel_of_placed (he : s.err = false) (hp : s.phase = .placed) :
    exec .mkSel s = .next (selectMask s) :=
  exec_effect rfl he (by rw [hp]; rfl) rfl

/-- A command of the phase PLACED faults in every other phase (R236). -/
theorem exec_badPhase_of_ne_placed {i : Instr} (hi : admittingPhases i = some [.placed])
    (hexec : executesInError i = false) (he : s.err = false) (hp : s.phase ≠ .placed) :
    exec i s = .next (raise .badPhase (encode i) s) := by
  rw [exec_eq_perform hexec, ← inPhase_eq hi, inPhase, beq_eq_false_iff_ne.mpr hp]
  exact perform_badPhase he

/-- MK.SEL writes every item that MK.SCORE writes and reads none of them (R180). -/
theorem selectMask_scoreMask (p : Nat) (s : State) : selectMask (scoreMask p s) = selectMask s := by
  have hscores : allScores (scoreMask p s) = allScores s := rfl
  simp only [selectMask, hscores]
  rfl

/-- Settles O47: in PLACED no check stops MK.SCORE up to 7, and what it writes MK.SEL overwrites. -/
theorem mkScoreLatchesThePenalties : Obligations.MkScoreLatchesThePenalties := by
  refine ⟨fun p hp => decode_ofNat (encode_mkScore p) (by simp [Instr.wellFormed, hp]),
    fun p s he hp hle => ⟨scoreMask p s, ?_, rfl, ?_⟩, fun p s => exec_badPhase_of_ne_placed rfl rfl,
    fun p s he hp hlt => exec_operandError rfl he (by rw [hp]; rfl) (if_pos hlt), fun bc p => ?_⟩
  · exact exec_effect rfl he (by rw [hp]; rfl) (if_neg (by omega))
  · rw [exec_mkSel_of_placed (s := scoreMask p s) he hp, selectMask_scoreMask, exec_mkSel_of_placed he hp]
  · exact illegalAt_formatA (r := ⟨0x41, "MK.SCORE", 0x41000000, 0xFFFFFF00⟩) (by simp [opcodeMap]) rfl rfl

/-! MK.SEL -/

/-- MASKID holds the committed pattern id, which is below 8 (R178). -/
theorem selectMask_maskId_toNat (s : State) : (selectMask s).maskId.toNat = (selectBest (allScores s)).1 := by
  rw [selectMask_maskId, BitVec.toNat_ofNat, Nat.mod_eq_of_lt (selectBest_allScores s).1]

/-- Settles O48: the scan commits the first least total. -/
theorem mkSelCommitsTheLeastMinimum : Obligations.MkSelCommitsTheLeastMinimum := by
  refine ⟨by decide, fun s he hp => ?_, by decide, fun s => exec_badPhase_of_ne_placed rfl rfl,
    fun low h₀ h₁ => ?_⟩
  · obtain ⟨-, hbest, least, first⟩ := selectBest_allScores s
    have hrun := exec_mkSel_of_placed he hp
    refine ⟨selectMask s, hrun, ?_⟩
    simp only [selectMask_maskId_toNat, ← hbest]
    exact ⟨rfl, least, first, fun q => selectMask_cand s q.isLt, fun x y h => candidate_get?_of_notMem _ h,
      exec_again_badPhase rfl rfl hrun (effectOf_err_eq_false .mkSel he)⟩
  · exact illegalAt_of_mask (r := ⟨0x42, "MK.SEL", 0x42000000, 0xFFFFFFFF⟩) (k := 0) (by simp [opcodeMap])
      (by decide) (by decide) (by simp only; omega) (by omega)

end Sys2Proof.Machine
end

section
/-! PROOFS. The four penalty rules (R173 to R177): each scan of the model counts the runs, blocks, windows and cells
that the spec names, and so many of them fit a grid. -/

namespace Sys2Proof.Machine

variable {n : Nat} {m : Grid QrModule}

/-! Rows, lines and squares of cells -/

/-- Row y by the positions of its cells. -/
theorem map_rows_eq (h : m.wf n = true) :
    m.map (fun row k => row[k]?) = (List.range n).map fun y k => m.get? k y := by
  obtain ⟨hlen, -⟩ := (Grid.wf_iff m).mp h
  refine List.ext_getElem (by simp [hlen]) fun y h₁ h₂ => ?_
  simp only [List.length_map] at h₁
  simp [Grid.get?, h₁]

/-- Column x by the positions of its cells. -/
theorem map_columns_eq (h : m.wf n = true) :
    (columns n m).map (fun l k => l[k]?) = (List.range n).map fun x k => m.get? x k := by
  rw [columns, List.map_map]
  refine List.map_congr_left fun x hx => funext fun k => ?_
  simp only [Function.comp_apply, List.getElem?_map, Grid.get?]
  cases hrow : m[k]? with
  | none => rfl
  | some row =>
    have hx : x < row.length := by
      rw [((Grid.wf_iff m).mp h).2 row (List.mem_of_getElem? hrow)]
      exact List.mem_range.mp hx
    simp [hx]

/-- A sum over the lines that the model scans is one over the lines that the spec counts by position (R173). -/
theorem sum_lines_eq (h : m.wf n = true) {f : List QrModule → Nat} {g : (Nat → Option QrModule) → Nat}
    (hfg : ∀ l : List QrModule, l.length = n → f l = g fun k => l[k]?) :
    ((gridLines n m).map f).sum = ((lineCells n m).map g).sum := by
  have hcells : lineCells n m = (gridLines n m).map fun l k => l[k]? := by
    rw [lineCells, gridLines, List.map_append, map_rows_eq h, map_columns_eq h]
  rw [hcells, List.map_map]
  exact congrArg List.sum (List.map_congr_left fun line hl => hfg line (length_of_mem_gridLines h hl))

/-- Counting over a square, row by row. -/
theorem countP_square (k : Nat) (p : Nat × Nat → Bool) :
    (square k).countP p = ((List.range k).map fun y => (List.range k).countP fun x => p (x, y)).sum := by
  rw [square, List.countP_flatMap]
  exact congrArg List.sum (List.map_congr_left fun y _ => List.countP_map)

theorem length_square (k : Nat) : (square k).length = k ^ 2 := by
  simp [square, List.length_flatMap, sq]

theorem mem_square {k : Nat} {p : Nat × Nat} : p ∈ square k ↔ p.1 < k ∧ p.2 < k := by
  obtain ⟨x, y⟩ := p
  simp [square, and_comm]

theorem square_nodup (k : Nat) : (square k).Nodup := by
  have h : square k = ((List.range k).product (List.range k)).map Prod.swap := by
    simp [square, List.product, List.map_flatMap, Function.comp_def]
  rw [h]
  exact (List.nodup_range.product List.nodup_range).map Prod.swap_injective

theorem sum_map_filter {α : Type} (p : α → Bool) (f : α → Nat) (l : List α) :
    ((l.filter p).map f).sum = (l.map fun a => if p a then f a else 0).sum := by
  simp [List.sum_map_ite]

/-! Rule 1 -/

section Runs

variable {cell : Nat → Option QrModule} {a b len len' : Nat}

/-- A run is no longer than another one from the same start, which would end inside it (R173). -/
theorem IsRun.length_le (ha : IsRun n cell a len) (hb : IsRun n cell a len') : len ≤ len' := by
  obtain ⟨-, hn, heq, -, -⟩ := ha
  obtain ⟨-, -, -, -, hend⟩ := hb
  by_contra hlt
  obtain hend | hend := hend
  · omega
  · exact hend (heq len' (by omega))

/-- Runs that overlap are the same (R173). -/
theorem IsRun.eq_of_overlap (ha : IsRun n cell a len) (hb : IsRun n cell b len') (hab : a ≤ b)
    (hlt : b < a + len) : (b, len') = (a, len) := by
  have hstart : b = a := by
    obtain ⟨-, -, heq, -, -⟩ := ha
    obtain ⟨-, -, -, hstart, -⟩ := hb
    by_contra hne
    obtain ⟨j, rfl⟩ : ∃ j, b = a + j + 1 := ⟨b - a - 1, by omega⟩
    obtain hstart | hstart := hstart
    · omega
    · exact hstart ((heq j (by omega)).trans (heq (j + 1) (by omega)).symm)
  subst hstart
  rw [Nat.le_antisymm (IsRun.length_le hb ha) (IsRun.length_le ha hb)]

/-- The start and the length of each of consecutive stretches of a line, the first one starting at `k`. -/
def spansFrom : Nat → List (List QrModule) → List (Nat × Nat)
  | _, [] => []
  | k, r :: rs => (k, r.length) :: spansFrom (k + r.length) rs

theorem spansFrom_start {p : Nat × Nat} {rs : List (List QrModule)} :
    ∀ {k : Nat}, p ∈ spansFrom k rs → k ≤ p.1 := by
  induction rs with
  | nil => intro k h; cases h
  | cons r rs ih =>
    intro k h
    obtain rfl | h := List.mem_cons.mp h
    · exact Nat.le_refl k
    · exact (Nat.le_add_right _ _).trans (ih h)

theorem spansFrom_nodup {rs : List (List QrModule)} (hne : [] ∉ rs) : ∀ k, (spansFrom k rs).Nodup := by
  induction rs with
  | nil => exact fun _ => List.nodup_nil
  | cons r rs ih =>
    intro k
    obtain ⟨hr, hrs⟩ : r ≠ [] ∧ [] ∉ rs := by simpa [eq_comm] using hne
    refine List.nodup_cons.mpr ⟨fun h => ?_, ih hrs _⟩
    have hpos := List.length_pos_iff.mpr hr
    have : k + r.length ≤ k := spansFrom_start h
    omega

theorem map_spansFrom_length (g : Nat → Nat) (rs : List (List QrModule)) :
    ∀ k, (spansFrom k rs).map (fun p => g p.2) = rs.map fun r => g r.length := by
  induction rs with
  | nil => exact fun _ => rfl
  | cons r rs ih => exact fun k => congrArg (g r.length :: ·) (ih _)

/-- Stretches of one value each, with different values on both sides of every border. -/
structure Alternating (rs : List (List QrModule)) : Prop where
  ne_nil : [] ∉ rs
  constant : ∀ r ∈ rs, ∃ v, r = List.replicate r.length v
  differ : rs.IsChain fun r r' => r.getLast? ≠ r'.head?

theorem alternating_splitBy (line : List QrModule) : Alternating (line.splitBy fun a b => a == b) where
  ne_nil := List.nil_notMem_splitBy _ _
  constant r hr := by
    have hchain := List.isChain_of_mem_splitBy hr
    simp only [beq_iff_eq] at hchain
    cases r with
    | nil => exact ⟨.unset, rfl⟩
    | cons v r => exact ⟨v, List.isChain_eq_iff_eq_replicate.mp hchain v rfl⟩
  differ := (List.isChain_getLast_head_splitBy _ line).imp fun r r' ⟨hr, hr', h⟩ => by
    rw [List.getLast?_eq_some_getLast hr, List.head?_eq_some_head hr']
    simpa using h

theorem Alternating.tail {r : List QrModule} {rs : List (List QrModule)} (h : Alternating (r :: rs)) :
    Alternating rs where
  ne_nil hmem := h.ne_nil (List.mem_cons_of_mem r hmem)
  constant r' hr' := h.constant r' (List.mem_cons_of_mem r hr')
  differ := h.differ.tail

theorem Alternating.length_head_pos {r : List QrModule} {rs : List (List QrModule)} (h : Alternating (r :: rs)) :
    0 < r.length :=
  List.length_pos_iff.mpr fun hr => h.ne_nil (by simp [hr])

/-- The cells of the first stretch hold one value, and the cell behind them another one, if any. -/
theorem Alternating.head_cells {r : List QrModule} {rs : List (List QrModule)} (h : Alternating (r :: rs)) :
    ∃ v, (∀ j < r.length, (r :: rs).flatten[j]? = some v) ∧ (r :: rs).flatten[r.length]? ≠ some v := by
  obtain ⟨v, hv⟩ := h.constant r (by simp)
  rw [List.flatten_cons]
  refine ⟨v, fun j hj => ?_, ?_⟩
  · rw [List.getElem?_append_left hj, hv]
    simp [hj]
  · have hlast : r.getLast? = some v := by
      rw [hv, List.getLast?_replicate, if_neg h.length_head_pos.ne']
    rw [List.getElem?_append_right (Nat.le_refl _), Nat.sub_self, ← List.head?_eq_getElem?]
    cases rs with
    | nil => simp
    | cons r' rs =>
      have hr' : r' ≠ [] := List.length_pos_iff.mp h.tail.length_head_pos
      rw [List.flatten_cons, List.head?_append_of_ne_nil _ hr', ← hlast]
      exact ((List.isChain_cons_cons.mp h.differ).1).symm

/-- Alternating stretches that fill the cells from the border `k` to `n` are the runs there (R173). -/
theorem mem_spansFrom_iff {rs : List (List QrModule)} : ∀ {k : Nat}, Alternating rs →
    n = k + rs.flatten.length → (∀ j, cell (k + j) = rs.flatten[j]?) → k = 0 ∨ cell (k - 1) ≠ cell k →
    k ≤ a → ((a, len) ∈ spansFrom k rs ↔ IsRun n cell a len) := by
  induction rs with
  | nil =>
    intro k _ hn _ _ hka
    simp only [List.flatten_nil, List.length_nil] at hn
    refine iff_of_false (by simp [spansFrom]) fun ⟨hpos, hle, _⟩ => by omega
  | cons r rs ih =>
    intro k halt hn hcell hstart hka
    have hpos := halt.length_head_pos
    obtain ⟨v, hin, hout⟩ := halt.head_cells
    simp only [← hcell] at hin hout
    rw [List.flatten_cons, List.length_append] at hn
    have hk : cell k = some v := hin 0 hpos
    have hlast : cell (k + r.length - 1) = some v := by
      rw [Nat.add_sub_assoc hpos]
      exact hin _ (by omega)
    have hrun : IsRun n cell k r.length :=
      ⟨hpos, by omega, fun j hj => (hin j hj).trans hk.symm, hstart, .inr (hk ▸ hout)⟩
    have hrest : ∀ j, cell (k + r.length + j) = rs.flatten[j]? := fun j => by
      rw [Nat.add_assoc, hcell, List.flatten_cons, List.getElem?_append_right (Nat.le_add_right _ _),
        Nat.add_sub_cancel_left]
    have ih (hka : k + r.length ≤ a) := ih halt.tail (by omega) hrest (.inr (hlast ▸ hout.symm)) hka
    rw [spansFrom, List.mem_cons]
    constructor
    · rintro (h | h)
      · cases h
        exact hrun
      · exact (ih (spansFrom_start h)).mp h
    · intro h
      by_cases hlt : a < k + r.length
      · exact .inl (IsRun.eq_of_overlap hrun h hka hlt)
      · exact .inr ((ih (by omega)).mpr h)

end Runs

/-- The runs that the model splits a line into are those the spec counts by start and length (R173). -/
theorem runPenalty_eq_runsPenalty {l : List QrModule} (h : l.length = n) :
    runPenalty l = runsPenalty n fun k => l[k]? := by
  have halt := alternating_splitBy l
  have hflat := List.flatten_splitBy (fun a b => a == b) l
  have hperm : (spansFrom 0 (l.splitBy fun a b => a == b)).Perm
      ((square (n + 1)).filter fun r => IsRun n (fun k => l[k]?) r.1 r.2) := by
    refine (List.perm_ext_iff_of_nodup (spansFrom_nodup halt.ne_nil 0)
      ((square_nodup _).filter _)).mpr fun ⟨a, len⟩ => ?_
    rw [mem_spansFrom_iff (n := n) (cell := fun k => l[k]?) halt (by simp [hflat, h]) (by simp [hflat])
      (.inl rfl) (Nat.zero_le a), List.mem_filter, mem_square]
    refine ⟨fun hrun => ⟨?_, by simpa using hrun⟩, fun hrun => by simpa using hrun.2⟩
    obtain ⟨-, hle, -⟩ := hrun
    simp only
    omega
  calc runPenalty l
    _ = ((spansFrom 0 (l.splitBy fun a b => a == b)).map fun r => if 5 ≤ r.2 then r.2 - 2 else 0).sum := by
      rw [map_spansFrom_length fun len => if 5 ≤ len then len - 2 else 0]
      rfl
    _ = (((square (n + 1)).filter fun r => IsRun n (fun k => l[k]?) r.1 r.2).map
          fun r => if 5 ≤ r.2 then r.2 - 2 else 0).sum := (hperm.map _).sum_eq
    _ = runsPenalty n fun k => l[k]? := by
      rw [sum_map_filter, runsPenalty]
      refine congrArg List.sum (List.map_congr_left fun r _ => ?_)
      simp only [decide_eq_true_eq, ite_and]
      split_ifs <;> omega

theorem runPenalty_replicate {n : Nat} (h : 5 ≤ n) (v : QrModule) : runPenalty (List.replicate n v) = n - 2 := by
  have hchain : (List.replicate n v).IsChain fun a b => (a == b) = true :=
    List.isChain_replicate_of_rel n (by simp)
  rw [runPenalty, List.splitBy_of_isChain (by simp; omega) hchain]
  simp [h]

theorem sum_runs_le (rs : List (List QrModule)) :
    (rs.map fun run => if 5 ≤ run.length then run.length - 2 else 0).sum ≤ rs.flatten.length - 2 := by
  induction rs with
  | nil => simp
  | cons r rs ih =>
    rw [List.map_cons, List.sum_cons, List.flatten_cons, List.length_append]
    split <;> omega

/-- A line gives no more than one run over all of it (R177). -/
theorem runPenalty_le (l : List QrModule) : runPenalty l ≤ l.length - 2 := by
  simpa only [runPenalty, List.flatten_splitBy] using sum_runs_le (l.splitBy fun a b => a == b)

/-! Rule 2 -/

/-- The 2x2 block at position `x` of two adjacent rows has four equal cells (R174). -/
def isBlock (upper lower : Nat → Option QrModule) (x : Nat) : Bool :=
  upper x == upper (x + 1) && upper x == lower x && upper x == lower (x + 1)

theorem blocksInRows_eq_countP {r : List QrModule} : ∀ {r' : List QrModule}, r.length = r'.length →
    blocksInRows r r' = (List.range (r.length - 1)).countP (isBlock (fun x => r[x]?) fun x => r'[x]?) := by
  induction r with
  | nil => intro r' _; rfl
  | cons a as ih =>
    intro r' h
    match as, r', h with
    | [], [b], _ => rfl
    | a' :: as, b :: b' :: bs, h =>
      have ih := ih (r' := b' :: bs) (by simpa using h)
      have hlen : (a :: a' :: as).length - 1 = (a' :: as).length - 1 + 1 := by simp
      rw [blocksInRows, ih, hlen, List.range_succ_eq_map, List.countP_cons, List.countP_map, Nat.add_comm]
      congr 1
      simp [isBlock, and_assoc]

theorem blocks_eq_sum (m : Grid QrModule) (h : ∀ row ∈ m, row.length = n) :
    blocks m = ((List.range (m.length - 1)).map fun y =>
      (List.range (n - 1)).countP (isBlock (fun x => m.get? x y) fun x => m.get? x (y + 1))).sum := by
  induction m with
  | nil => rfl
  | cons r rs ih =>
    cases rs with
    | nil => rfl
    | cons r' rs =>
      have hr : r.length = n := h r (by simp)
      have hr' : r'.length = n := h r' (by simp)
      have ih := ih fun row hrow => h row (by simp [hrow])
      have hlen : (r :: r' :: rs).length - 1 = (r' :: rs).length - 1 + 1 := by simp
      rw [blocks, blocksInRows_eq_countP (hr.trans hr'.symm), ih, hlen, List.range_succ_eq_map, List.map_cons,
        List.map_map, List.sum_cons, hr]
      rfl

/-- The scan counts the blocks of equal cells, one for each upper left corner (R174). -/
theorem blocks_eq_countP (h : m.wf n = true) :
    blocks m = (square (n - 1)).countP fun p => isBlock (fun x => m.get? x p.2) (fun x => m.get? x (p.2 + 1)) p.1 := by
  obtain ⟨hlen, hrow⟩ := (Grid.wf_iff m).mp h
  rw [countP_square, blocks_eq_sum m hrow, hlen]

theorem blocks_le_sq (h : m.wf n = true) : blocks m ≤ (n - 1) ^ 2 := by
  rw [blocks_eq_countP h, ← length_square]
  exact List.countP_le_length

theorem blocksInRows_replicate (a : Nat) (v : QrModule) :
    blocksInRows (List.replicate (a + 1) v) (List.replicate (a + 1) v) = a := by
  induction a with
  | zero => rfl
  | succ a ih =>
    rw [List.replicate_succ] at ih
    rw [List.replicate_succ, List.replicate_succ, blocksInRows, ih]
    simp [Nat.add_comm]

theorem blocks_replicate (b : Nat) (r : List QrModule) :
    blocks (List.replicate (b + 1) r) = blocksInRows r r * b := by
  induction b with
  | zero => rfl
  | succ b ih =>
    rw [List.replicate_succ] at ih
    rw [List.replicate_succ, List.replicate_succ, blocks, ih]
    ring

theorem rule2_replicate {a b : Nat} (ha : 1 ≤ a) (hb : 1 ≤ b) (v : QrModule) :
    rule2 (List.replicate b (List.replicate a v)) = 3 * (a - 1) * (b - 1) := by
  obtain ⟨a, rfl⟩ := Nat.exists_eq_add_of_le' ha
  obtain ⟨b, rfl⟩ := Nat.exists_eq_add_of_le' hb
  rw [rule2, blocks_replicate, blocksInRows_replicate]
  simp [Nat.mul_assoc]

/-! Rule 3 -/

theorem matchesAt_eq_countP (pattern l : List QrModule) :
    matchesAt pattern l = (List.range (l.length + 1)).countP fun k => pattern.isPrefixOf (l.drop k) := by
  have htails : l.tails = (List.range (l.length + 1)).map fun k => l.drop k :=
    List.ext_getElem (by simp) fun k _ _ => by simp
  rw [matchesAt, ← List.countP_eq_length_filter, htails, List.countP_map]
  rfl

/-- The 11 cells of a line from the start `s` on spell the bits (R175). -/
def spells (bits : List Bool) (cell : Nat → Option QrModule) (s : Nat) : Bool :=
  (List.range 11).all fun j => cell (s + j) == (bits[j]?).map QrModule.ofBit

theorem windowMatches_eq_countP (n : Nat) (bits : List Bool) (cell : Nat → Option QrModule) :
    windowMatches n bits cell = (List.range (n - 10)).countP (spells bits cell) := rfl

theorem spells_iff {bits : List Bool} {cell : Nat → Option QrModule} {s : Nat} :
    spells bits cell s = true ↔ ∀ j < 11, cell (s + j) = (bits[j]?).map QrModule.ofBit := by
  simp [spells]

/-- The pattern is a prefix from position `k` on where the cells spell its bits (R175). -/
theorem isPrefixOf_drop_iff_spells {bits : List Bool} (hbits : bits.length = 11) (l : List QrModule) (k : Nat) :
    (bits.map QrModule.ofBit).isPrefixOf (l.drop k) = true ↔ spells bits (fun k => l[k]?) k = true := by
  rw [List.isPrefixOf_iff_prefix, List.prefix_iff_getElem?, spells_iff]
  simp only [List.length_map, hbits, List.getElem?_drop]
  refine forall₂_congr fun j hj => ?_
  simp [hbits, hj]

/-- The starts that the model tests are those of the windows inside the line: behind them too few cells are left
(R175). -/
theorem matchesAt_eq_windowMatches {bits : List Bool} (hbits : bits.length = 11) {l : List QrModule}
    (h : l.length = n) :
    matchesAt (bits.map QrModule.ofBit) l = windowMatches n bits fun k => l[k]? := by
  have hsplit : l.length + 1 = (n - 10) + (l.length + 1 - (n - 10)) := by omega
  have hshort : ((List.range (l.length + 1 - (n - 10))).map fun k => n - 10 + k).countP
      (fun k => (bits.map QrModule.ofBit).isPrefixOf (l.drop k)) = 0 := by
    refine List.countP_eq_zero.mpr fun k hk hprefix => ?_
    obtain ⟨j, -, rfl⟩ := List.mem_map.mp hk
    have hle := (List.isPrefixOf_iff_prefix.mp hprefix).length_le
    rw [List.length_map, hbits, List.length_drop] at hle
    omega
  rw [matchesAt_eq_countP, hsplit, List.range_add, List.countP_append, hshort, Nat.add_zero]
  exact List.countP_congr fun k _ => isPrefixOf_drop_iff_spells hbits l k

/-- Two tests that never hold together hold for no more entries than there are. -/
theorem countP_add_countP_le_length {α : Type} {p q : α → Bool} (h : ∀ a, p a = true → q a = true → False)
    (l : List α) : l.countP p + l.countP q ≤ l.length := by
  rw [List.length_eq_countP_add_countP p]
  exact Nat.add_le_add_left (List.countP_mono_left fun a _ hq => by simpa using fun hp => h a hp hq) _

/-- At one start only one of the two patterns can match, for they differ in their first cell (R175, R177). -/
theorem windowMatches_add_reverse_le (n : Nat) (cell : Nat → Option QrModule) :
    windowMatches n finderBits cell + windowMatches n finderBits.reverse cell ≤ n - 10 := by
  rw [windowMatches_eq_countP, windowMatches_eq_countP]
  refine (countP_add_countP_le_length (fun s hfwd hrev => ?_) _).trans_eq List.length_range
  have hfirst := (spells_iff.mp hfwd 0 (by decide)).symm.trans (spells_iff.mp hrev 0 (by decide))
  exact absurd hfirst (by decide)

/-! Rule 4 -/

/-- The Dark cells of the grid (R176). -/
theorem darkCount_eq_countP (h : m.wf n = true) :
    darkCount m = (square n).countP fun p => m.get? p.1 p.2 == some .dark := by
  have hrow : ∀ row ∈ m, row.count .dark = (List.range n).countP fun x => row[x]? == some .dark := by
    intro row hrow
    have hsome : row.map some = (List.range n).map fun x => row[x]? :=
      List.ext_getElem (by simp [((Grid.wf_iff m).mp h).2 row hrow]) fun x _ _ => by simp
    rw [← List.count_map_of_injective row some (Option.some_injective _), hsome, List.count, List.countP_map]
    rfl
  have hrows := congrArg (fun rows => (rows.map fun cell : Nat → Option QrModule =>
    (List.range n).countP fun x => cell x == some .dark).sum) (map_rows_eq h)
  simp only [List.map_map] at hrows
  rw [countP_square, darkCount, List.map_congr_left hrow]
  exact hrows

theorem balancePenalty_eq (d t : Nat) :
    balancePenalty d t = 10 * ((20 * (d : Int) - 10 * (t : Int)).natAbs / t) := by
  rw [balancePenalty]
  congr 2
  omega

theorem balancePenalty_multiple {d t : Nat} (h : d ≤ t) : ∃ k ≤ 10, balancePenalty d t = 10 * k :=
  ⟨_, Nat.div_le_of_le_mul (by omega), rfl⟩

/-! The bounds -/

theorem rule1_le (h : m.wf n = true) : rule1 n m ≤ 2 * n * (n - 2) :=
  sum_gridLines_le h fun l hl => hl ▸ runPenalty_le l

theorem rule3_le (h : m.wf n = true) : rule3 n m ≤ 40 * (2 * n * (n - 10)) := by
  refine Nat.mul_le_mul_left 40 (sum_gridLines_le h fun l hl => ?_)
  have hfwd := matchesAt_eq_windowMatches (bits := finderBits) rfl hl
  have hrev := matchesAt_eq_windowMatches (bits := finderBits.reverse) rfl hl
  exact (congrArg₂ (· + ·) hfwd hrev).trans_le (windowMatches_add_reverse_le n _)

theorem rule4_multiple (h : m.wf n = true) : ∃ k ≤ 10, rule4 n m = 10 * k :=
  balancePenalty_multiple (darkCount_le h)

/-- Settles O46: the scans count what the spec counts; a line has at most n - 2 from its runs and at most n - 10
windows that match, the grid at most (n - 1)^2 blocks and a balance of at most 10 steps. -/
theorem penaltiesAreBounded : Obligations.PenaltiesAreBounded := by
  refine ⟨fun n m h => ⟨sum_lines_eq h fun l => runPenalty_eq_runsPenalty, ?_, ?_, ?_, rule4_multiple h⟩,
    by decide, fun n v h => runPenalty_replicate h v, fun a b v ha hb => rule2_replicate ha hb v, by decide, by decide,
    fun n m h hn => ?_⟩
  · exact congrArg (3 * ·) (blocks_eq_countP h)
  · exact congrArg (40 * ·) (sum_lines_eq h fun l hl => congrArg₂ (· + ·)
      (matchesAt_eq_windowMatches (bits := finderBits) rfl hl)
      (matchesAt_eq_windowMatches (bits := finderBits.reverse) rfl hl))
  · rw [rule4, balancePenalty_eq, darkCount_eq_countP h]
  · have h₁ := rule1_le h
    have h₂ : rule2 m ≤ 3 * (n - 1) ^ 2 := Nat.mul_le_mul_left 3 (blocks_le_sq h)
    have h₃ := rule3_le h
    obtain ⟨k, hk, h₄⟩ := rule4_multiple h
    have b₁ : 2 * n * (n - 2) ≤ 2 * 33 * (33 - 2) := Nat.mul_le_mul (by omega) (by omega)
    have b₂ : (n - 1) ^ 2 ≤ (33 - 1) ^ 2 := Nat.pow_le_pow_left (by omega) 2
    have b₃ : 2 * n * (n - 10) ≤ 2 * 33 * (33 - 10) := Nat.mul_le_mul (by omega) (by omega)
    have htotal : (scoreGrid n m).total = rule1 n m + rule2 m + rule3 n m + rule4 n m := rfl
    refine ⟨h₁, b₁, h₂, ?_, h₃, ?_, ?_, ?_⟩ <;> omega

end Sys2Proof.Machine
end

section
/-! PROOFS. The format information (R190 to R195): the division behind BCH15, the cells of the two copies, and the
commands FMT.ENC and FMT.PUT. -/

namespace Sys2Proof.Machine

variable {s : State}

/-! The division by GEN -/

/-- One round of R190's loop: GEN is subtracted, its top bit at `bit`, where that bit is set. -/
def bchStep (r : BitVec 15) (bit : Nat) : BitVec 15 :=
  if r.getLsbD bit then r ^^^ (bchGenerator <<< (bit - 10)) else r

theorem bchRemainder_eq_foldl (v : BitVec 15) : bchRemainder v = [14, 13, 12, 11, 10].foldl bchStep v := rfl

/-- The shifted GEN that the round at `bit` subtracts has its top bit there. -/
theorem bchGenerator_shift_top {bit : Nat} (hbit : bit ∈ [14, 13, 12, 11, 10]) :
    (bchGenerator <<< (bit - 10)).getLsbD bit = true ∧
      ∀ j > bit, (bchGenerator <<< (bit - 10)).getLsbD j = false := by
  have top : ∀ b ∈ [14, 13, 12, 11, 10], (bchGenerator <<< (b - 10)).getLsbD b = true ∧
      (bchGenerator <<< (b - 10)).toNat < 2 ^ (b + 1) := by decide
  obtain ⟨htop, hlt⟩ := top bit hbit
  exact ⟨htop, fun j hj => Nat.testBit_lt_two_pow (hlt.trans_le (Nat.pow_le_pow_right (by decide) hj))⟩

/-- A round clears its bit, the top one that is left (R190). -/
theorem bchStep_high {r : BitVec 15} {bit : Nat} (hbit : bit ∈ [14, 13, 12, 11, 10])
    (h : ∀ j > bit, r.getLsbD j = false) : ∀ j ≥ bit, (bchStep r bit).getLsbD j = false := by
  obtain ⟨htop, hhigh⟩ := bchGenerator_shift_top hbit
  intro j hj
  unfold bchStep
  split <;> obtain rfl | hj := Nat.eq_or_lt_of_le hj
  case isTrue.inl hr => rw [BitVec.getLsbD_xor, hr, htop]; rfl
  case isTrue.inr hr => rw [BitVec.getLsbD_xor, h j hj, hhigh j hj]; rfl
  case isFalse.inl hr => simpa using hr
  case isFalse.inr hr => exact h j hj

/-- The loop leaves zeros from bit 10 on (R190). -/
theorem bchRemainder_high (v : BitVec 15) : ∀ j ≥ 10, (bchRemainder v).getLsbD j = false :=
  bchStep_high (by decide) <| bchStep_high (by decide) <| bchStep_high (by decide) <| bchStep_high (by decide) <|
    bchStep_high (bit := 14) (by decide) fun _ => BitVec.getLsbD_of_ge v _

theorem bchRemainder_lt (v : BitVec 15) : (bchRemainder v).toNat < 1024 :=
  Nat.lt_pow_two_of_testBit (n := 10) _ (bchRemainder_high v)

/-- `w` is a multiple of GEN by a polynomial of degree below 5. -/
def IsBchMultiple (w : BitVec 15) : Prop := ∃ q < 32, w = binaryProduct (BitVec.ofNat 15 q) bchGenerator

/-- Subtracting GEN at bit `k` changes bit `k` of the quotient. -/
theorem IsBchMultiple.xor_shift {w : BitVec 15} {k : Nat} (hk : k < 5) (h : IsBchMultiple w) :
    IsBchMultiple (w ^^^ (bchGenerator <<< k)) := by
  have flip : ∀ q < 32, ∀ k < 5, binaryProduct (BitVec.ofNat 15 (q ^^^ 2 ^ k)) bchGenerator =
      binaryProduct (BitVec.ofNat 15 q) bchGenerator ^^^ (bchGenerator <<< k) := by decide +kernel
  obtain ⟨q, hq, rfl⟩ := h
  exact ⟨q ^^^ 2 ^ k, Nat.xor_lt_two_pow (n := 5) hq (Nat.pow_lt_pow_right (by decide) hk), (flip q hq k hk).symm⟩

/-- What the loop subtracts is a multiple of GEN (R190). -/
theorem isBchMultiple_xor_bchRemainder (v : BitVec 15) : IsBchMultiple (v ^^^ bchRemainder v) := by
  rw [bchRemainder_eq_foldl]
  refine List.foldlRecOn (motive := fun r => IsBchMultiple (v ^^^ r)) _ _
    ⟨0, by decide, BitVec.xor_self.trans (by decide)⟩ fun r h bit hbit => ?_
  have hk : ∀ b ∈ [14, 13, 12, 11, 10], b - 10 < 5 := by decide
  unfold bchStep
  split
  · rw [← BitVec.xor_assoc]
    exact h.xor_shift (hk bit hbit)
  · exact h

/-- `v` has zeros in its low 10 bits and the remainder has zeros above them (R190). -/
theorem shiftLeft_and_bchRemainder (v : BitVec 15) : v <<< 10 &&& bchRemainder (v <<< 10) = 0 := by
  refine BitVec.eq_of_getLsbD_eq fun j _ => ?_
  rw [BitVec.getLsbD_and, BitVec.getLsbD_shiftLeft]
  rcases Nat.lt_or_ge j 10 with h | h
  · simp [h]
  · simp [bchRemainder_high _ j h]

/-- Words with no bit in common are joined alike by `or` and by `xor`. -/
theorem or_eq_xor_of_and_eq_zero {n : Nat} {a b : BitVec n} (h : a &&& b = 0) : a ||| b = a ^^^ b := by
  refine BitVec.eq_of_getLsbD_eq fun j _ => ?_
  have hbit : ∀ x y : Bool, (x && y) = false → (x || y) = (x ^^ y) := by decide
  rw [BitVec.getLsbD_or, BitVec.getLsbD_xor]
  exact hbit _ _ (by rw [← BitVec.getLsbD_and, h]; exact BitVec.getLsbD_zero)

theorem bchCodeword_eq_xor (d : BitVec 5) :
    bchCodeword d = (d.setWidth 15) <<< 10 ^^^ bchRemainder ((d.setWidth 15) <<< 10) :=
  or_eq_xor_of_and_eq_zero (shiftLeft_and_bchRemainder _)

theorem setWidth_shiftLeft_toNat (d : BitVec 5) : ((d.setWidth 15) <<< 10).toNat = d.toNat * 1024 := by
  rw [BitVec.toNat_shiftLeft, BitVec.toNat_setWidth, Nat.shiftLeft_eq]
  omega

/-! The linear code -/

theorem bchStep_xor (a b : BitVec 15) (bit : Nat) : bchStep a bit ^^^ bchStep b bit = bchStep (a ^^^ b) bit := by
  unfold bchStep
  rw [BitVec.getLsbD_xor]
  generalize bchGenerator <<< (bit - 10) = g
  have cancel : a ^^^ g ^^^ (b ^^^ g) = a ^^^ b := by
    rw [BitVec.xor_assoc, BitVec.xor_comm b, ← BitVec.xor_assoc g, BitVec.xor_self, BitVec.zero_xor]
  cases a.getLsbD bit <;> cases b.getLsbD bit
  case false.false => rfl
  case false.true => exact (BitVec.xor_assoc a b g).symm
  case true.false => show a ^^^ g ^^^ b = a ^^^ b ^^^ g; ac_rfl
  case true.true => exact cancel

/-- The remainder is linear over GF(2). -/
theorem bchRemainder_xor (a b : BitVec 15) : bchRemainder (a ^^^ b) = bchRemainder a ^^^ bchRemainder b :=
  List.foldl_hom₂ [14, 13, 12, 11, 10] (· ^^^ ·) bchStep bchStep bchStep a b bchStep_xor

theorem bchCodeword_xor (d d' : BitVec 5) : bchCodeword (d ^^^ d') = bchCodeword d ^^^ bchCodeword d' := by
  simp only [bchCodeword_eq_xor, BitVec.setWidth_xor, BitVec.shiftLeft_xor_distrib, bchRemainder_xor]
  ac_rfl

/-- Two format words differ where the codeword of their inputs' difference has its ones. -/
theorem getLsbD_bch15_bne (d d' : BitVec 5) (i : Nat) :
    ((bch15 d).getLsbD i != (bch15 d').getLsbD i) = (bchCodeword (d ^^^ d')).getLsbD i := by
  simp only [bch15, bchCodeword_xor, BitVec.getLsbD_xor]
  cases (bchCodeword d).getLsbD i <;> cases (bchCodeword d').getLsbD i <;> simp

/-- Settles O49: each round of the loop subtracts GEN shifted and clears its top bit; the code is linear, so its
distance is the least weight of the 31 words of nonzero inputs. -/
theorem bch15IsTheRemainderCode : Obligations.Bch15IsTheRemainderCode := by
  refine ⟨by decide, by decide, by decide, by decide, fun d => ?_, fun d d' h => ?_⟩
  · have hdisjoint := shiftLeft_and_bchRemainder (d.setWidth 15)
    exact ⟨setWidth_shiftLeft_toNat d, bchRemainder_lt _, isBchMultiple_xor_bchRemainder _, rfl,
      or_eq_xor_of_and_eq_zero hdisjoint, (BitVec.add_eq_or_of_and_eq_zero _ _ hdisjoint).symm⟩
  · have weight : ∀ e : BitVec 5, e ≠ 0 →
        7 ≤ ((List.range 15).filter fun i => (bchCodeword e).getLsbD i).length := by decide
    simp only [getLsbD_bch15_bne]
    exact weight _ fun he => h (BitVec.xor_eq_zero_iff.mp he)

/-! FMT.ENC -/

theorem encode_fmtEnc (d : Nat) : encode (.fmtEnc d) = BitVec.ofNat 32 (0x50000000 + d) :=
  congrArg (BitVec.ofNat 32) (by omega)

/-- Settles O50: no check stops FMT.ENC up to 31, and above its operand check does. -/
theorem fmtEncReturnsTheCode : Obligations.FmtEncReturnsTheCode := by
  refine ⟨fun d hd => decode_ofNat (encode_fmtEnc d) (by simp [Instr.wellFormed, hd]), fun d s he hd => ?_,
    fun d s he hd => exec_operandError rfl he rfl (if_pos hd), fun bc d => ?_, by decide, by decide⟩
  · rw [BitVec.ofNat_toNat]
    exact exec_effect rfl he rfl (if_neg (by omega))
  · exact illegalAt_formatA (r := ⟨0x50, "FMT.ENC", 0x50000000, 0xFFFFFF00⟩) (by simp [opcodeMap]) rfl rfl

/-! The cells of the two copies -/

/-- The cells of both copies, bit by bit (R191). -/
def fmtStrips (map : Config.Fmt1Map) (n : Nat) : List (Nat × Nat) :=
  (List.range 15).map (fmtCells1 map) ++ (List.range 15).map (fmtCells2 n)

theorem mem_fmtStrips {map : Config.Fmt1Map} {n : Nat} {p : Nat × Nat} :
    p ∈ fmtStrips map n ↔ ∃ i < 15, p = fmtCells1 map i ∨ p = fmtCells2 n i := by
  simp only [fmtStrips, List.mem_append, List.mem_map, List.mem_range, ← exists_or, ← and_or_left, eq_comm (a := p)]

/-- Either map of the first copy fills the cells that R147 reserves in the corner. -/
theorem mem_map_fmtCells1_iff (map : Config.Fmt1Map) {p : Nat × Nat} :
    p ∈ (List.range 15).map (fmtCells1 map) ↔
      p ∈ [0, 1, 2, 3, 4, 5, 7, 8].map (fun x => (x, 8)) ++ [0, 1, 2, 3, 4, 5, 7, 8].map fun y => (8, y) := by
  have equal : ∀ map ∈ [Config.Fmt1Map.std, .xpose], ((List.range 15).map (fmtCells1 map)).toFinset =
      ([0, 1, 2, 3, 4, 5, 7, 8].map (fun x => (x, 8)) ++ [0, 1, 2, 3, 4, 5, 7, 8].map fun y => (8, y)).toFinset := by
    decide
  rw [← List.mem_toFinset, equal map (by cases map <;> simp), List.mem_toFinset]

theorem fmtCells2_row {n k : Nat} (hn : 8 ≤ n) (hk : k < 8) : fmtCells2 n (7 - k) = (n - 8 + k, 8) := by
  rw [fmtCells2, if_pos (by omega)]
  congr 1
  omega

theorem fmtCells2_column {n : Nat} (hn : 15 ≤ n) (k : Nat) : fmtCells2 n (8 + k) = (8, n - 7 + k) := by
  rw [fmtCells2, if_neg (by omega)]
  congr 1
  omega

/-- The two copies fill exactly the cells that R147 reserves, whichever map the first one takes. -/
theorem mem_formatCells_iff (map : Config.Fmt1Map) {n : Nat} (hn : 17 ≤ n) {p : Nat × Nat} :
    p ∈ formatCells n ↔ p ∈ fmtStrips map n := by
  rw [fmtStrips, List.mem_append, mem_map_fmtCells1_iff]
  constructor
  · unfold formatCells
    rw [List.append_assoc, List.mem_append]
    refine Or.imp_right fun h => ?_
    simp only [List.mem_append, List.mem_map, List.mem_range] at h ⊢
    obtain ⟨k, hk, rfl⟩ | ⟨k, hk, rfl⟩ := h
    · exact ⟨7 - k, by omega, fmtCells2_row (by omega) hk⟩
    · exact ⟨8 + k, by omega, fmtCells2_column (by omega) k⟩
  · rintro (h | h)
    · exact List.mem_append_left _ (List.mem_append_left _ h)
    · obtain ⟨i, hi, rfl⟩ := List.mem_map.mp h
      exact fmtCells2_mem_formatCells hn (List.mem_range.mp hi)

/-- No two of the thirty cells are the same (R191): the first copy lies in the corner, the second outside it. -/
theorem fmtStrips_nodup (map : Config.Fmt1Map) {n : Nat} (hn : 17 ≤ n) : (fmtStrips map n).Nodup := by
  have hfirst : ((List.range 15).map (fmtCells1 map)).Nodup := by cases map <;> decide
  have hcorner : ∀ p ∈ (List.range 15).map (fmtCells1 map), p.1 < 9 ∧ p.2 < 9 := by cases map <;> decide
  refine hfirst.append (List.Nodup.map_on (fun i hi j hj => ?_) List.nodup_range) fun p h₁ h₂ => ?_
  · exact fmtCells2_inj hn (List.mem_range.mp hi) (List.mem_range.mp hj)
  · obtain ⟨i, hi, rfl⟩ := List.mem_map.mp h₂
    have hin := hcorner _ h₁
    have hout := fmtCells2_lt hn (List.mem_range.mp hi)
    omega

/-- Settles O52: the tables cell by cell; the first copy fills the corner's reserved cells under either map, and the
second the other two runs. -/
theorem formatCellMaps : Obligations.FormatCellMaps :=
  ⟨by decide, fun _ _ => rfl, by decide, fun v _ map _ =>
    ⟨by simp, fmtStrips_nodup map (by omega), fun _ => mem_formatCells_iff map (by omega)⟩⟩

/-! FMT.PUT -/

theorem encode_fmtPut (lvl : Nat) : encode (.fmtPut lvl) = BitVec.ofNat 32 (0x51000000 + lvl) :=
  congrArg (BitVec.ofNat 32) (by omega)

/-- With level L the five bits are the number 8 + MASKID, for the mask has three bits (R195). -/
theorem formatValue_one_eq_ofNat : ∀ maskId : BitVec 3, formatValue 1 maskId = BitVec.ofNat 5 (8 + maskId.toNat) := by
  decide

/-- The items FMT.PUT writes at level L: MAT, FMTREG, PHASE and RES (R195). -/
theorem putFormat_one_eq (s : State) : putFormat 1 s =
    { s with
      mat := (putFormat 1 s).mat
      fmtReg := bch15 (BitVec.ofNat 5 (8 + s.maskId.toNat))
      phase := .done
      res := BitVec.ofNat 32 (bch15 (BitVec.ofNat 5 (8 + s.maskId.toNat))).toNat } := by
  rw [BitVec.ofNat_toNat, ← formatValue_one_eq_ofNat]
  simp only [putFormat]

/-- FMT.PUT faults outside MASKED (R236). -/
theorem exec_fmtPut_badPhase {lvl : Nat} (he : s.err = false) (hp : s.phase ≠ .masked) :
    exec (.fmtPut lvl) s = .next (raise .badPhase (encode (.fmtPut lvl)) s) := by
  have ha : admittedIn (.fmtPut lvl) s.phase = false := by simpa [admittedIn, admittingPhases] using hp
  rw [exec_eq_perform rfl, ha, perform_badPhase he]

/-- FMTWRITE leaves every cell outside the two copies (R191). -/
theorem fmtWrite_get?_of_notMem {n : Nat} (hn : 17 ≤ n) (w : BitVec 15) (m : Grid QrModule) {x y : Nat}
    (h : ∀ i < 15, (x, y) ≠ fmtCells1 Config.fmt1Map i ∧ (x, y) ≠ fmtCells2 n i) :
    (fmtWrite n w m).get? x y = m.get? x y := by
  refine fmtWrite_get?_other (p := (x, y)) hn w m fun hmem => ?_
  obtain ⟨i, hi, hcell⟩ := mem_fmtStrips.mp ((mem_formatCells_iff Config.fmt1Map hn).mp hmem)
  obtain ⟨h₁, h₂⟩ := h i hi
  exact hcell.elim h₁ h₂

/-- Settles O51: in MASKED no check stops FMT.PUT 1, whose word is that of 8 + MASKID, and FMTWRITE puts it into both
copies and no other cell. -/
theorem fmtPutWritesBothCopies : Obligations.FmtPutWritesBothCopies := by
  refine ⟨fun lvl hlvl => decode_ofNat (encode_fmtPut lvl) (by simp [Instr.wellFormed, hlvl]), fun s hg he hp => ?_,
    fun lvl s => exec_fmtPut_badPhase, fun lvl s he hp hlvl => ?_, fun bc lvl => ?_⟩
  · have hd := hg.drawn (by simp [hp])
    have hn : 17 ≤ s.size.toNat := by have := hd.size_bounds; omega
    refine ⟨putFormat 1 s, exec_effect rfl he (by rw [hp]; rfl) rfl, putFormat_one_eq s, ?_⟩
    rw [putFormat_mat, formatValue_one_eq_ofNat]
    exact ⟨fun i hi => holdsFmtBit_fmtWrite _ hn hd.mat_wf hi, fun x y => fmtWrite_get?_of_notMem hn _ _⟩
  · exact exec_operandError rfl he (by rw [hp]; rfl) (if_pos hlvl)
  · exact illegalAt_formatA (r := ⟨0x51, "FMT.PUT", 0x51000000, 0xFFFFFF00⟩) (by simp [opcodeMap]) rfl rfl

end Sys2Proof.Machine
end

section
/-! PROOFS. The system commands NOP, RESET, CLRERR and CSR.RD (R200 to R203): the words of format Z that the
must-be-zero bits exclude, what each listed CSR number reads, and the commands' effects and faults. -/

namespace Sys2Proof.Machine

variable {s : State}

/-! Words of format Z, and the error that the examples start from -/

/-- A row's word with a one in the bits 23:0 of format Z is illegal (R81). -/
theorem illegalAt_formatZ {r : OpcodeRow} (hr : r ∈ opcodeMap) (hmask : r.mask = 0xFFFFFFFF)
    {base low : Nat} (hbase : base = r.op * 2 ^ 24) (hpos : 0 < low) (hlow : low < 2 ^ 24) :
    IllegalAt (base + low) :=
  illegalAt_of_mask (k := 0) hr (hmask.trans (by decide)) (by decide) (by omega) (by omega)

/-- With ERR = 0, the word of GF.LOG 0 faults with LogZero (R104). -/
theorem issue_gfLog_zero (he : s.err = false) :
    issue 0x11000000 s = .next (raise .logZero 0x11000000 s) :=
  (issue_eq_exec (i := .gfLog 0) (by decide) s).trans (exec_operandError rfl he rfl rfl)

/-! NOP and RESET -/

/-- Settles O15: NOP has no check and no effect. -/
theorem nopChangesNothing : Obligations.NopChangesNothing := by
  refine ⟨by decide, fun _ => rfl, fun low hpos hlow => ?_⟩
  rw [← Nat.zero_add low]
  exact illegalAt_formatZ (r := ⟨0x00, "NOP", 0x00000000, 0xFFFFFFFF⟩) (by simp [opcodeMap]) rfl rfl hpos hlow

/-- Settles O16: RESET answers the state of hardware reset, whose registers are zero, whose arrays are replicated
zeros and whose grids and DLIST are empty. -/
theorem resetGivesTheResetState : Obligations.ResetGivesTheResetState := by
  refine ⟨by decide, fun s => ⟨hardwareReset s, rfl, rfl, rfl, ?_⟩, fun low => ?_⟩
  · simp [hardwareReset, State.reset, State.dlen]
  · exact illegalAt_formatZ (r := ⟨0x01, "RESET", 0x01000000, 0xFFFFFFFF⟩) (by simp [opcodeMap]) rfl rfl

/-! CLRERR -/

/-- Error registers that are clear already stay as they are (R22, R202). -/
theorem clearError_eq_self (h : ErrorInv s) (he : s.err = false) : clearError s = s := by
  obtain ⟨hcode, hinfo⟩ := h.1 he
  rw [clearError, ← he, ← hcode, ← hinfo]

/-- Settles O17: CLRERR is `clearError` in every state; in the example it follows the fault of GF.LOG 0. -/
theorem clrErrClearsTheErrorRegisters : Obligations.ClrErrClearsTheErrorRegisters := by
  refine ⟨by decide, fun _ => rfl, fun s h he => congrArg _ (clearError_eq_self h he), fun low => ?_,
    _, issue_gfLog_zero rfl, by decide, _, rfl, by decide⟩
  exact illegalAt_formatZ (r := ⟨0x02, "CLRERR", 0x02000000, 0xFFFFFFFF⟩) (by simp [opcodeMap]) rfl rfl

/-! CSR.RD -/

theorem encode_csrRd (n : Nat) : encode (.csrRd n) = BitVec.ofNat 32 (0x03000000 + n) :=
  congrArg (BitVec.ofNat 32) (by omega)

/-- The numbers 0x18 to 0x1F read the eight CAND registers (R41). -/
theorem csr_cand (p : Fin 8) (s : State) : csr (0x18 + p.val) s = some s.cand[p] := by
  fin_cases p <;> rfl

/-- A number outside the list is unimplemented (R41, R203). -/
theorem csr_eq_none {n : Nat} (h : n ∉ csrNumbers) (s : State) : csr n s = none := by
  unfold csr
  split
  case h_17 =>
    have hn : 0x18 ≤ n → 8 ≤ n - 0x18 := by
      simp only [csrNumbers, List.mem_cons] at h
      omega
    simpa using hn
  all_goals exact absurd (by decide) h

/-- CSR.RD of a number that holds an item of any width writes the item, zero-extended (R203). -/
theorem exec_csrRd_zext {n k : Nat} {v : BitVec k} (h : csr n s = some (v.setWidth 32)) :
    exec (.csrRd n) s = .next { s with res := BitVec.ofNat 32 v.toNat } := by
  rw [exec_csrRd_of_some h, setRes, BitVec.ofNat_toNat]

/-- CSR.RD of a number that holds a whole register writes the register (R203). -/
theorem exec_csrRd_word {n : Nat} {v : Word} (h : csr n s = some v) :
    exec (.csrRd n) s = .next { s with res := BitVec.ofNat 32 v.toNat } :=
  exec_csrRd_zext (h.trans (congrArg some v.setWidth_eq.symm))

/-- CSR.RD of an unlisted number is ignored or faults with BadOperand (R203). -/
theorem exec_csrRd_unlisted {n : Nat} (h : n ∉ csrNumbers) (s : State) : exec (.csrRd n) s =
    .next (if s.err then s else raise .badOperand (encode (.csrRd n)) s) := by
  rw [exec_csrRd_of_none (csr_eq_none h s)]
  cases he : s.err with
  | true => exact perform_ignored he
  | false => exact perform_operand he

/-- Settles O18: each listed number reads its item, narrow ones zero-extended; an unlisted number reads none. -/
theorem csrReadReturnsTheItem : Obligations.CsrReadReturnsTheItem := by
  refine ⟨fun n hn => decode_ofNat (encode_csrRd n) (by simp [Instr.wellFormed, hn]), fun s => ?_,
    fun s n h => exec_csrRd_unlisted h s, fun bc n => ?_,
    _, issue_gfLog_zero rfl, exec_csrRd_of_some rfl, exec_csrRd_of_some rfl⟩
  · exact ⟨exec_csrRd_word rfl, rfl, exec_csrRd_zext rfl, exec_csrRd_word rfl, exec_csrRd_zext rfl,
      exec_csrRd_zext rfl, exec_csrRd_zext rfl, exec_csrRd_of_some rfl, exec_csrRd_zext rfl, exec_csrRd_word rfl,
      exec_csrRd_zext rfl, exec_csrRd_zext rfl, exec_csrRd_word rfl, exec_csrRd_word rfl, exec_csrRd_word rfl,
      exec_csrRd_word rfl, exec_csrRd_word rfl, fun p => exec_csrRd_word (csr_cand p s)⟩
  · exact illegalAt_formatA (r := ⟨0x03, "CSR.RD", 0x03000000, 0xFFFFFF00⟩) (by simp [opcodeMap]) rfl rfl

end Sys2Proof.Machine
end

section
/-! PROOFS. The host's choice of a version and its codewords (R210 to R213): SELECT_VERSION as a chain of ranges, the
bit stream of DATA_CODEWORDS regrouped nibble by nibble into bytes, and INTERLEAVE of one block. -/

namespace Sys2Proof.Machine

variable {v : Nat}

/-! SELECT_VERSION -/

/-- The version by ranges of the payload's length (R210). -/
theorem selectVersion_eq (len : Nat) : selectVersion len =
    if len ≤ 17 then .ok 1 else if len ≤ 32 then .ok 2 else if len ≤ 53 then .ok 3
    else if len ≤ 78 then .ok 4 else .error .dataTooLong := by
  simp only [selectVersion, List.find?_cons, List.find?_nil, Config.capBytes]
  split_ifs <;> simp [*]

theorem exists_selectVersion_eq_ok {len : Nat} (h : len ≤ 78) : ∃ v, selectVersion len = .ok v := by
  rw [selectVersion_eq]
  split_ifs <;> exact ⟨_, rfl⟩

theorem selectVersion_eq_error {len : Nat} (h : 78 < len) : selectVersion len = .error .dataTooLong := by
  rw [selectVersion_eq, if_neg (by omega), if_neg (by omega), if_neg (by omega), if_neg (by omega)]

/-- The selected version is one of the four. -/
theorem selectVersion_bounds {len : Nat} (h : selectVersion len = .ok v) : 1 ≤ v ∧ v ≤ 4 := by
  rw [selectVersion_eq] at h
  split_ifs at h <;> cases h <;> decide

/-- The selected version has capacity (R210). -/
theorem le_capBytes_of_selectVersion {len : Nat} (h : selectVersion len = .ok v) : len ≤ Config.capBytes v := by
  rw [selectVersion_eq] at h
  split_ifs at h <;> cases h <;> assumption

/-- No version below the selected one has capacity (R210). -/
theorem capBytes_lt_of_selectVersion {len u : Nat} (h : selectVersion len = .ok v) (hu : 1 ≤ u) (huv : u < v) :
    Config.capBytes u < len := by
  rw [selectVersion_eq] at h
  split_ifs at h <;> cases h
  all_goals interval_cases u <;> simp only [Config.capBytes] <;> omega

/-- No level is refused under the LEVEL_POLICY taken (R214, Log 12). -/
theorem refusesLevel_levelPolicy (level : EccLevel) : refusesLevel Config.levelPolicy level = false := rfl

/-- Above 78 bytes no command is issued, at any level (R210, R215). -/
theorem generate_eq_error {payload : List Byte} (level : EccLevel) (h : 78 < payload.length) :
    generate payload level = .error .dataTooLong := by
  simp [generate, refusesLevel_levelPolicy, selectVersion_eq_error h]

/-- Steps 1 to 10 of GENERATE where a version has capacity (R215). -/
theorem generate_eq_ok {payload : List Byte} (level : EccLevel) (h : selectVersion payload.length = .ok v) :
    generate payload level = .ok (.reset :: cwLoad (dataCodewords payload v) ++ qrRun v) := by
  simp [generate, refusesLevel_levelPolicy, h]

/-- Settles O58: the four ranges end at the four capacities. -/
theorem selectVersionIsTheSmallestThatFits : Obligations.SelectVersionIsTheSmallestThatFits := by
  refine ⟨fun len hlen => ?_, fun len => selectVersion_eq_error, fun payload => generate_eq_error .levelL, rfl,
    fun len h => ?_, fun len h₁ h₂ => ?_, fun len h₁ h₂ => ?_, fun len h₁ h₂ => ?_⟩
  · obtain ⟨v, hv⟩ := exists_selectVersion_eq_ok hlen
    obtain ⟨hpos, hle⟩ := selectVersion_bounds hv
    exact ⟨v, hv, hpos, hle, le_capBytes_of_selectVersion hv, fun u => capBytes_lt_of_selectVersion hv⟩
  · rw [selectVersion_eq, if_pos h]
  · rw [selectVersion_eq, if_neg (by omega), if_pos h₂]
  · rw [selectVersion_eq, if_neg (by omega), if_neg (by omega), if_pos h₂]
  · rw [selectVersion_eq, if_neg (by omega), if_neg (by omega), if_neg (by omega), if_pos h₂]

/-! Bytes and nibbles as bits -/

/-- The low `k` bits of a number, the highest first. -/
def lowBits (k n : Nat) : List Bool := (List.range k).map fun j => n.testBit (k - 1 - j)

theorem byteBits_eq_lowBits (n : Nat) : byteBits n = lowBits 8 n := rfl

@[simp] theorem lowBits_length (k n : Nat) : (lowBits k n).length = k := by simp [lowBits]

@[simp] theorem byteBits_length (n : Nat) : (byteBits n).length = 8 := lowBits_length 8 n

theorem lowBits_succ (k n : Nat) : lowBits (k + 1) n = lowBits k (n / 2) ++ [n.testBit 0] := by
  simp only [lowBits, List.range_succ, List.map_append, List.map_cons, List.map_nil, Nat.add_sub_cancel, Nat.sub_self]
  refine congrArg (· ++ _) (List.map_congr_left fun j hj => ?_)
  have hjk : k - j = k - 1 - j + 1 := by have := List.mem_range.mp hj; omega
  rw [hjk, Nat.testBit_add_one]

/-- Reading the low bits of a number gives its remainder. -/
theorem foldl_lowBits (k : Nat) : ∀ n : Nat,
    (lowBits k n).foldl (fun acc b => 2 * acc + b.toNat) 0 = n % 2 ^ k := by
  induction k with
  | zero => intro n; simp [lowBits, Nat.mod_one]
  | succ k ih =>
    intro n
    rw [lowBits_succ, List.foldl_append, ih, List.foldl_cons, List.foldl_nil, Nat.toNat_testBit, pow_succ',
      Nat.mod_mul]
    omega

theorem byteOfBits_byteBits (n : Nat) : byteOfBits (byteBits n) = BitVec.ofNat 8 n := by
  rw [byteOfBits, byteBits_eq_lowBits, foldl_lowBits]
  exact BitVec.eq_of_toNat_eq (by simp)

/-- A byte's bits are those of its upper and its lower nibble. -/
theorem byteBits_mul_sixteen_add (hi : Nat) {lo : Nat} (h : lo < 16) :
    byteBits (hi * 16 + lo) = lowBits 4 hi ++ lowBits 4 lo := by
  have hbit := Nat.testBit_two_pow_mul_add hi (i := 4) h
  rw [mul_comm hi]
  simp [byteBits, lowBits, List.range_succ, hbit]

theorem byteBits_eq_nibbles (b : Nat) : byteBits b = lowBits 4 (b / 16) ++ lowBits 4 (b % 16) := by
  rw [← byteBits_mul_sixteen_add (b / 16) (Nat.mod_lt b (by decide)), Nat.div_add_mod']

/-! The bytes of the stream -/

/-- The bytes `bs` moved by four bits behind the nibble `hi`, and a zero nibble to the end. -/
def shiftNibble : Nat → List Nat → List Nat
  | hi, [] => [hi * 16]
  | hi, b :: bs => (hi * 16 + b / 16) :: shiftNibble (b % 16) bs

@[simp] theorem shiftNibble_length (bs : List Nat) : ∀ hi, (shiftNibble hi bs).length = bs.length + 1 := by
  induction bs with
  | nil => intro hi; rfl
  | cons b bs ih => intro hi; simp [shiftNibble, ih]

/-- The bits of the moved bytes are the bits of the nibble, of the bytes and of a zero nibble. -/
theorem flatMap_shiftNibble {bs : List Nat} : ∀ {hi : Nat}, (∀ b ∈ bs, b < 256) →
    (shiftNibble hi bs).flatMap byteBits = lowBits 4 hi ++ bs.flatMap byteBits ++ lowBits 4 0 := by
  induction bs with
  | nil =>
    intro hi _
    simpa [shiftNibble] using byteBits_mul_sixteen_add hi (lo := 0) (by decide)
  | cons b bs ih =>
    intro hi h
    obtain ⟨hb, hbs⟩ := List.forall_mem_cons.mp h
    rw [shiftNibble, List.flatMap_cons, ih hbs, byteBits_mul_sixteen_add hi (by omega), List.flatMap_cons,
      byteBits_eq_nibbles b]
    simp only [List.append_assoc]

/-- A moved byte is the lower nibble of the byte before and the upper nibble of the byte in its place. -/
theorem shiftNibble_getElem? {bs : List Nat} : ∀ {hi q : Nat}, q ≤ bs.length → (shiftNibble hi bs)[q]? =
    some ((if q = 0 then hi else bs.getD (q - 1) 0 % 16) * 16 + bs.getD q 0 / 16) := by
  induction bs with
  | nil =>
    intro hi q h
    obtain rfl : q = 0 := by simpa using h
    rfl
  | cons b bs ih =>
    intro hi q h
    cases q with
    | zero => rfl
    | succ q =>
      rw [shiftNibble, List.getElem?_cons_succ, ih (by simpa using h)]
      cases q <;> simp

/-- The pad codewords (R211). -/
def padCodewords (count : Nat) : List Nat := (List.range count).map fun i => if i % 2 = 0 then 0xEC else 0x11

theorem padBits_eq_flatMap (count : Nat) : padBits count = (padCodewords count).flatMap byteBits := by
  simp [padBits, padCodewords, List.flatMap_map]

/-- The count and the payload as numbers. -/
def countAndPayload (payload : List Byte) : List Nat := payload.length :: payload.map BitVec.toNat

/-- The numbers of the data codewords (R211): indicator, count, payload and terminator, then the pads. -/
def codewordNumbers (payload : List Byte) (v : Nat) : List Nat :=
  shiftNibble 4 (countAndPayload payload) ++ padCodewords (Config.dataCw v - (payload.length + 2))

theorem headerBits_eq (payload : List Byte) :
    headerBits payload = lowBits 4 4 ++ (countAndPayload payload).flatMap byteBits := by
  simp only [headerBits, countAndPayload, List.flatMap_cons, List.flatMap_map, List.append_assoc]
  rfl

theorem headerBits_length (payload : List Byte) : (headerBits payload).length = 12 + 8 * payload.length := by
  rw [headerBits_eq, List.length_append, lowBits_length, length_flatMap_block byteBits_length, countAndPayload,
    List.length_cons, List.length_map]
  omega

/-- Every version's data are its capacity and the two bytes that indicator, count and terminator fill (R5, R212). -/
theorem dataCw_eq_capBytes_add_two (h₁ : 1 ≤ v) (h₂ : v ≤ 4) : Config.dataCw v = Config.capBytes v + 2 := by
  interval_cases v <;> rfl

theorem countAndPayload_lt {payload : List Byte} (h : payload.length < 256) :
    ∀ b ∈ countAndPayload payload, b < 256 := by
  refine List.forall_mem_cons.mpr ⟨h, fun b hb => ?_⟩
  obtain ⟨c, -, rfl⟩ := List.mem_map.mp hb
  exact c.isLt

theorem capBytes_le (v : Nat) : Config.capBytes v ≤ 78 := by
  unfold Config.capBytes
  split <;> decide

section Admitted

variable {payload : List Byte} (h₁ : 1 ≤ v) (h₂ : v ≤ 4) (hcap : payload.length ≤ Config.capBytes v)
include h₁ h₂ hcap

theorem codewordNumbers_length : (codewordNumbers payload v).length = Config.dataCw v := by
  have hcw := dataCw_eq_capBytes_add_two h₁ h₂
  simp only [codewordNumbers, countAndPayload, padCodewords, List.length_append, shiftNibble_length, List.length_cons,
    List.length_map, List.length_range]
  omega

/-- The terminator is whole and ends at a byte, so the stream needs no further alignment (R212). -/
theorem dataBits_eq_flatMap : dataBits payload v = (codewordNumbers payload v).flatMap byteBits := by
  have hcw := dataCw_eq_capBytes_add_two h₁ h₂
  have hlen : payload.length < 256 := by have := capBytes_le v; omega
  have hbits : headerBits payload ++ List.replicate 4 false ++
      padBits (Config.dataCw v - (payload.length + 2)) = (codewordNumbers payload v).flatMap byteBits := by
    rw [codewordNumbers, List.flatMap_append, flatMap_shiftNibble (countAndPayload_lt hlen), headerBits_eq,
      padBits_eq_flatMap]
    rfl
  have hwhole : min 4 (8 * Config.dataCw v - (12 + 8 * payload.length)) = 4 := by omega
  have haligned : (8 - (12 + 8 * payload.length + 4) % 8) % 8 = 0 := by omega
  have hpads : (8 * Config.dataCw v - (12 + 8 * payload.length + 4) + 7) / 8 =
      Config.dataCw v - (payload.length + 2) := by omega
  simp only [dataBits, List.length_append, headerBits_length, List.length_replicate, hwhole, haligned,
    List.replicate_zero, List.append_nil, hpads, hbits]
  refine List.take_of_length_le (le_of_eq ?_)
  rw [length_flatMap_block byteBits_length, codewordNumbers_length h₁ h₂ hcap, mul_comm]

end Admitted

/-- The q-th byte of a stream of bytes. -/
theorem take_drop_flatMap_byteBits {cs : List Nat} : ∀ {q : Nat} (hq : q < cs.length),
    ((cs.flatMap byteBits).drop (8 * q)).take 8 = byteBits cs[q] := by
  induction cs with
  | nil => intro q hq; simp at hq
  | cons c cs ih =>
    intro q hq
    rw [List.flatMap_cons]
    cases q with
    | zero => exact List.take_left' (byteBits_length c)
    | succ q =>
      have hdrop : 8 * (q + 1) = (byteBits c).length + 8 * q := by rw [byteBits_length]; ring
      rw [hdrop, List.drop_length_add_append]
      exact ih (by simpa using hq)

/-- DATA_CODEWORDS of a payload that fits, number by number (R211). -/
theorem dataCodewords_eq {payload : List Byte} (h₁ : 1 ≤ v) (h₂ : v ≤ 4)
    (hcap : payload.length ≤ Config.capBytes v) :
    dataCodewords payload v = (codewordNumbers payload v).map (BitVec.ofNat 8) := by
  have hlen := codewordNumbers_length h₁ h₂ hcap
  refine List.ext_getElem (by simp [dataCodewords, hlen]) fun q hq _ => ?_
  have hq : q < (codewordNumbers payload v).length := by simpa [dataCodewords, hlen] using hq
  simp only [dataCodewords, List.getElem_map, List.getElem_range, dataBits_eq_flatMap h₁ h₂ hcap,
    take_drop_flatMap_byteBits hq, byteOfBits_byteBits]

@[simp] theorem dataCodewords_length (payload : List Byte) (v : Nat) :
    (dataCodewords payload v).length = Config.dataCw v := by
  simp [dataCodewords]

/-- A codeword of the moved part: the nibble before it and the upper nibble of the number in its place. -/
theorem codewordNumbers_getElem?_of_le {payload : List Byte} {q : Nat} (h : q ≤ payload.length + 1) :
    (codewordNumbers payload v)[q]? = some ((if q = 0 then 4 else
      (countAndPayload payload).getD (q - 1) 0 % 16) * 16 + (countAndPayload payload).getD q 0 / 16) := by
  have hlen : (countAndPayload payload).length = payload.length + 1 := by simp [countAndPayload]
  rw [codewordNumbers, List.getElem?_append_left (by rw [shiftNibble_length]; omega),
    shiftNibble_getElem? (by omega)]

/-- Behind the moved part the pad codewords. -/
theorem codewordNumbers_getElem?_pad {payload : List Byte} {q : Nat} (h : payload.length + 2 ≤ q)
    (hq : q < Config.dataCw v) :
    (codewordNumbers payload v)[q]? = some (if (q - (payload.length + 2)) % 2 = 0 then 0xEC else 0x11) := by
  have hlen : (shiftNibble 4 (countAndPayload payload)).length = payload.length + 2 := by simp [countAndPayload]
  have hpad : q - (payload.length + 2) < Config.dataCw v - (payload.length + 2) := by omega
  rw [codewordNumbers, List.getElem?_append_right (by omega), hlen, padCodewords]
  simp [hpad]

/-- Every codeword number by its place (R211). -/
theorem codewordNumbers_getElem? {payload : List Byte} {q : Nat} (hq : q < Config.dataCw v) :
    (codewordNumbers payload v)[q]? = some
      (if q = 0 then 0x40 + payload.length / 16
       else if q ≤ payload.length then
         (countAndPayload payload).getD (q - 1) 0 % 16 * 16 + (countAndPayload payload).getD q 0 / 16
       else if q = payload.length + 1 then (countAndPayload payload).getD payload.length 0 % 16 * 16
       else if (q - (payload.length + 2)) % 2 = 0 then 0xEC else 0x11) := by
  by_cases hpad : payload.length + 2 ≤ q
  · have h₀ : q ≠ 0 := by omega
    have h₁ : ¬ q ≤ payload.length := by omega
    have h₂ : q ≠ payload.length + 1 := by omega
    simp only [codewordNumbers_getElem?_pad hpad hq, if_neg h₀, if_neg h₁, if_neg h₂]
  · rw [codewordNumbers_getElem?_of_le (by omega)]
    by_cases h₀ : q = 0
    · subst h₀
      rfl
    by_cases h₁ : q ≤ payload.length
    · simp only [if_neg h₀, if_pos h₁]
    · obtain rfl : q = payload.length + 1 := by omega
      have hend : (countAndPayload payload).getD (payload.length + 1) 0 = 0 :=
        List.getD_eq_default _ _ (by simp [countAndPayload])
      simp only [if_neg h₀, if_neg h₁, if_pos, hend, Nat.add_sub_cancel, Nat.zero_div, Nat.add_zero]

/-- The count, the payload's bytes, and 0 behind them. -/
theorem countAndPayload_getD (payload : List Byte) (q : Nat) : (countAndPayload payload).getD q 0 =
    if q = 0 then payload.length else ((payload[q - 1]?).getD 0).toNat := by
  cases q with
  | zero => rfl
  | succ q => cases h : payload[q]? <;> simp [countAndPayload, h]

/-! INTERLEAVE -/

/-- The columns of one part are the part itself (R213). -/
theorem interleaveParts_singleton (p : List Byte) : interleaveParts [p] = p := by
  have hmax : ([p].map List.length).foldl max 0 = p.length := by simp
  have hcol : ∀ c ∈ List.range p.length, ([p].filterMap fun q => q[c]?) = [p.getD c 0] := fun c hc => by
    simp [List.mem_range.mp hc]
  rw [interleaveParts, hmax, List.flatMap_congr hcol, ← List.map_eq_flatMap]
  exact List.ext_getElem (by simp) fun c _ hc => by simp [hc]

/-- Settles O59: the stream's bytes are those of count and payload, moved by the indicator's nibble, and the pads. -/
theorem dataCodewordsInClosedForm : Obligations.DataCodewordsInClosedForm := by
  refine ⟨rfl, rfl, rfl, rfl, rfl, rfl, rfl, fun payload v h₁ h₂ hcap => ?_, fun data ecc => ?_⟩
  · intro len b
    have hb : ∀ q, b q = (countAndPayload payload).getD q 0 := fun q => (countAndPayload_getD payload q).symm
    refine ⟨dataCodewords_length payload v, fun q hq => ?_⟩
    rw [dataCodewords_eq h₁ h₂ hcap, List.getElem?_map, codewordNumbers_getElem? hq]
    simp only [hb, Option.map_some]
    rfl
  · exact congrArg₂ (· ++ ·) (interleaveParts_singleton data) (interleaveParts_singleton ecc)

end Sys2Proof.Machine
end

section
/-! PROOFS. GENERATE (R215): the commands that the host issues, each run in the phase that admits it; the pending words
that no command reads; and the symbol in which they end (R217, R218). -/

namespace Sys2Proof.Machine

variable {s t : State} {v : Nat}

/-! The commands that the host issues -/

/-- A command at the head of the stream runs first, and the rest of the stream at the state it leaves (R68). -/
theorem issueAll_encode_cons {i : Instr} (hi : i.wellFormed = true) (h : exec i s = .next t) (is : List Instr) :
    issueAll ((i :: is).map encode) s = issueAll (is.map encode) t := by
  rw [List.map_cons, issueAll, issue_eq_exec (decode_encode i hi), h]

/-- The run of CW.WR from `k` on that CW.LOAD expands to, ahead of other commands (R88 (1)). -/
theorem issueAll_cwWrRun (is : List Instr) (bytes : List Byte) : ∀ {k : Nat} {s : State}, s.err = false →
    k + bytes.length ≤ 100 →
    issueAll (((bytes.zipIdx k).map (fun b => Instr.cwWr b.2 b.1) ++ is).map encode) s =
      issueAll (is.map encode) (writeCwRun k bytes s) := by
  induction bytes with
  | nil => intro k s _ _; rfl
  | cons b bytes ih =>
    intro k s he hk
    rw [List.length_cons] at hk
    have hi : (Instr.cwWr k b).wellFormed = true := by simp [Instr.wellFormed]; omega
    rw [List.zipIdx_cons, List.map_cons, List.cons_append,
      issueAll_encode_cons hi (exec_cwWr_of_le b he (by omega)), ih (s := writeCw k b s) he (by omega), writeCwRun]

/-! The items that the pipeline commands leave -/

@[simp] theorem encodeBlock_err (k e : Nat) (s : State) : (encodeBlock k e s).err = s.err := by simp [encodeBlock]
@[simp] theorem encodeBlock_errCode (k e : Nat) (s : State) : (encodeBlock k e s).errCode = s.errCode := by
  simp [encodeBlock]

@[simp] theorem buildMatrix_err (v : Nat) (s : State) : (buildMatrix v s).err = s.err := rfl
@[simp] theorem buildMatrix_errCode (v : Nat) (s : State) : (buildMatrix v s).errCode = s.errCode := rfl
@[simp] theorem buildMatrix_cwbuf (v : Nat) (s : State) : (buildMatrix v s).cwbuf = s.cwbuf := rfl

@[simp] theorem placeData_err (m : Nat) (s : State) : (placeData m s).err = s.err := rfl
@[simp] theorem placeData_errCode (m : Nat) (s : State) : (placeData m s).errCode = s.errCode := rfl
@[simp] theorem placeData_cwbuf (m : Nat) (s : State) : (placeData m s).cwbuf = s.cwbuf := rfl

@[simp] theorem selectMask_err (s : State) : (selectMask s).err = s.err := by simp [selectMask]
@[simp] theorem selectMask_errCode (s : State) : (selectMask s).errCode = s.errCode := by simp [selectMask]
@[simp] theorem selectMask_cwbuf (s : State) : (selectMask s).cwbuf = s.cwbuf := by simp [selectMask]

@[simp] theorem putFormat_err (l : Nat) (s : State) : (putFormat l s).err = s.err := rfl
@[simp] theorem putFormat_errCode (l : Nat) (s : State) : (putFormat l s).errCode = s.errCode := rfl
@[simp] theorem putFormat_cwbuf (l : Nat) (s : State) : (putFormat l s).cwbuf = s.cwbuf := rfl

/-! QR.RUN -/

/-- The columns of R5 are in the ranges of RS.ENC and MX.PLACE. -/
theorem codewordCounts_bounds (h₁ : 1 ≤ v) (h₂ : v ≤ 4) :
    1 ≤ Config.eccCw v ∧ Config.eccCw v ≤ 20 ∧ Config.totalCw v ≤ 100 := by
  interval_cases v <;> decide

/-- MX.BUILD, MX.PLACE, MK.SEL and FMT.PUT, one after another. -/
def drawMatrix (v m : Nat) (s : State) : State := putFormat 1 (selectMask (placeData m (buildMatrix v s)))

/-- What the five commands of QR.RUN do one after another (R88 (2)). -/
def drawSymbol (v : Nat) (s : State) : State :=
  drawMatrix v (Config.totalCw v) (encodeBlock (Config.dataCw v) (Config.eccCw v) s)

/-- With ERR = 0, the four pipeline commands: each leaves the phase that admits the next (R236). -/
theorem issueAll_drawMatrix {m : Nat} (he : s.err = false) (h₁ : 1 ≤ v) (h₂ : v ≤ 4) (hm : m ≤ 100) :
    issueAll ([.mxBuild v, .mxPlace m, .mkSel, .fmtPut 1].map encode) s = .next (drawMatrix v m s) := by
  have hbuild := exec_mxBuild_of_le he h₁ h₂
  have hplace : exec (.mxPlace m) (buildMatrix v s) = _ := exec_mxPlace_of_le (by simpa) (by simp) hm
  have hselect : exec .mkSel (placeData m (buildMatrix v s)) = _ := exec_mkSel_of_placed (by simpa) (by simp)
  have hformat : exec (.fmtPut 1) (selectMask (placeData m (buildMatrix v s))) = _ :=
    exec_effect rfl (by simpa) (by simp only [selectMask_phase]; rfl) rfl
  rw [issueAll_encode_cons (by simp [Instr.wellFormed]; omega) hbuild,
    issueAll_encode_cons (by simp [Instr.wellFormed]; omega) hplace,
    issueAll_encode_cons rfl hselect, issueAll_encode_cons rfl hformat]
  rfl

/-- With ERR = 0, QR.RUN of a version in scope (R88 (2)). -/
theorem issueAll_qrRun (he : s.err = false) (h₁ : 1 ≤ v) (h₂ : v ≤ 4) :
    issueAll ((qrRun v).map encode) s = .next (drawSymbol v s) := by
  obtain ⟨hpos, hle, htotal⟩ := codewordCounts_bounds h₁ h₂
  have hsum : Config.dataCw v + Config.eccCw v ≤ 100 := htotal
  rw [qrRun, issueAll_encode_cons (by simp [Instr.wellFormed]; omega) (exec_rsEnc_of_le he hpos hle hsum),
    issueAll_drawMatrix (by simpa) h₁ h₂ htotal, drawSymbol]

/-! The pending words -/

/-- The state with other pending words (Log 1). -/
def State.withPending (s : State) (ws : List Word) : State := { s with pending := ws }

theorem selectMask_withPending (s : State) (ws : List Word) :
    selectMask (s.withPending ws) = (selectMask s).withPending ws := by
  have hscores : allScores (s.withPending ws) = allScores s := rfl
  simp only [selectMask, hscores]
  rfl

theorem encodeBlock_withPending (k e : Nat) (s : State) (ws : List Word) :
    encodeBlock k e (s.withPending ws) = (encodeBlock k e s).withPending ws := by
  have hstream : cwStream k (s.withPending ws) = cwStream k s := rfl
  rw [encodeBlock_eq, encodeBlock_eq k e s, hstream, writeCwRun_cwbuf_congr (s := s) (u := s.withPending ws) k _ rfl]
  rfl

theorem writeCwRun_withPending (k : Nat) (bs : List Byte) (s : State) (ws : List Word) :
    writeCwRun k bs (s.withPending ws) = (writeCwRun k bs s).withPending ws := by
  rw [writeCwRun_eq, writeCwRun_eq bs k s, writeCwRun_cwbuf_congr (s := s) (u := s.withPending ws) k _ rfl]
  rfl

theorem drawMatrix_withPending (v m : Nat) (s : State) (ws : List Word) :
    drawMatrix v m (s.withPending ws) = (drawMatrix v m s).withPending ws := by
  have hbuild : buildMatrix v (s.withPending ws) = (buildMatrix v s).withPending ws := by
    simp only [buildMatrix, State.withPending]
  have hplace : ∀ u : State, placeData m (u.withPending ws) = (placeData m u).withPending ws := fun u => by
    simp only [placeData, State.withPending]
    rfl
  have hformat : ∀ u : State, putFormat 1 (u.withPending ws) = (putFormat 1 u).withPending ws := fun u => by
    simp only [putFormat, State.withPending]
  rw [drawMatrix, hbuild, hplace, selectMask_withPending, hformat, drawMatrix]

/-- No command behind RESET reads a pending word, and each leaves them all. -/
theorem drawSymbol_withPending (v : Nat) (s : State) (ws : List Word) :
    drawSymbol v (s.withPending ws) = (drawSymbol v s).withPending ws := by
  rw [drawSymbol, encodeBlock_withPending, drawMatrix_withPending, drawSymbol]

/-! The symbol -/

/-- The state in which GENERATE of the version's data codewords ends (R215), but for the pending words. -/
def symbolState (v : Nat) (data : List Byte) : State := drawSymbol v (writeCwRun 0 data State.reset)

/-- The whole command sequence of GENERATE, from every state (R215, R218): RESET discards it, and the rest depends on
the codewords alone. -/
theorem issueAll_generated {data : List Byte} (h₁ : 1 ≤ v) (h₂ : v ≤ 4) (hdata : data.length ≤ 100) (s : State) :
    issueAll ((.reset :: cwLoad data ++ qrRun v).map encode) s =
      .next ((symbolState v data).withPending s.pending) := by
  have hreset : exec .reset s = .next (State.reset.withPending s.pending) := rfl
  have herr : (writeCwRun 0 data (State.reset.withPending s.pending)).err = false := by rw [writeCwRun_err]; rfl
  rw [List.cons_append, issueAll_encode_cons rfl hreset, cwLoad, issueAll_cwWrRun _ _ rfl (by omega),
    issueAll_qrRun herr h₁ h₂, writeCwRun_withPending, drawSymbol_withPending, symbolState]

/-! The codewords of the symbol -/

/-- RS.ENC behind CW.LOAD leaves the data and their remainder (R121, R129). -/
theorem cwStream_encodeBlock_writeCwRun {data : List Byte} {e : Nat} (h : data.length + e ≤ 100) (s : State) :
    cwStream (data.length + e) (encodeBlock data.length e (writeCwRun 0 data s)) = data ++ rsRem data e := by
  have hload : cwStream data.length (writeCwRun 0 data s) = data := by
    simpa [cwStream] using cwStream_writeCwRun_append (k := 0) data (by omega) s
  have hlen := rsRem_length data e
  have hblock := cwStream_writeCwRun_append (k := data.length) (rsRem data e) (by omega) (writeCwRun 0 data s)
  rw [hload, hlen] at hblock
  rw [← hblock, cwStream, encodeBlock_cwbuf, hload, ← cwStream]

/-- The symbol's block is the data and their remainder. -/
theorem symbolState_block {data : List Byte} (h₁ : 1 ≤ v) (h₂ : v ≤ 4) (hdata : data.length = Config.dataCw v) :
    (symbolState v data).cwbuf.toList.take (Config.totalCw v) = data ++ rsRem data (Config.eccCw v) := by
  obtain ⟨-, -, htotal⟩ := codewordCounts_bounds h₁ h₂
  rw [Config.totalCw, ← hdata] at htotal
  rw [symbolState, drawSymbol, drawMatrix, putFormat_cwbuf, selectMask_cwbuf, placeData_cwbuf, buildMatrix_cwbuf,
    ← cwStream, Config.totalCw, ← hdata, cwStream_encodeBlock_writeCwRun htotal]

/-- The symbol's data codewords (R211). -/
theorem symbolState_data {data : List Byte} (h₁ : 1 ≤ v) (h₂ : v ≤ 4) (hdata : data.length = Config.dataCw v) :
    (symbolState v data).cwbuf.toList.take (Config.dataCw v) = data := by
  have hblock := congrArg (List.take data.length) (symbolState_block h₁ h₂ hdata)
  rwa [List.take_take, List.take_left, hdata, Nat.min_eq_left (by simp [Config.totalCw])] at hblock

/-! The matrix of the symbol -/

/-- MOD.RD of a module that is not Unset shows the bit that MAT holds (R217, Log 19). -/
theorem viewModule_of_geometryInv (hg : GeometryInv s) (he : s.err = false) (hp : s.phase ≠ .idle) {x y : Nat}
    (hx : x < s.size.toNat) (hy : y < s.size.toNat) (hset : s.mat.get? x y ≠ some .unset) :
    ∃ b : Bool, viewModule x y s = some b.toNat ∧ s.mat.get? x y = some (QrModule.ofBit b) := by
  obtain ⟨-, hread, -⟩ := modRdReturnsTheModule
  obtain ⟨m, r, hm, -, hexec⟩ := hread x y s hg he hp hx hy
  have hview : viewModule x y s = some ((m.code + 4 * r.toNat) % 2) := by simp [viewModule, hexec, he]
  have hlow : (m.code + 4 * r.toNat) % 2 = m.code % 2 := by omega
  rw [hview, hlow, hm]
  cases m with
  | unset => exact absurd hm hset
  | light => exact ⟨false, rfl, rfl⟩
  | dark => exact ⟨true, rfl, rfl⟩

theorem drawMatrix_invariants (h₁ : 1 ≤ v) (h₂ : v ≤ 4) (m : Nat) (s : State) :
    GeometryInv (drawMatrix v m s) ∧ ModuleInv (drawMatrix v m s) := by
  have hbuilt := drawn_buildMatrix h₁ h₂ s
  have hplaced := hbuilt.placeData m (buildMatrix_phase v s)
  have hmasked := hplaced.selectMask (placeData_phase m _)
  exact ⟨geometryInv_putFormat (selectMask_phase _) hmasked 1,
    moduleInv_putFormat (selectMask_phase _) (moduleInv_selectMask (placeData_phase m _)
      (moduleInv_placeData m (buildMatrix_phase v s) hbuilt (moduleInv_buildMatrix s))) 1⟩

theorem symbolState_invariants (h₁ : 1 ≤ v) (h₂ : v ≤ 4) (data : List Byte) :
    GeometryInv (symbolState v data) ∧ ModuleInv (symbolState v data) :=
  drawMatrix_invariants h₁ h₂ _ _

/-! The registers of the symbol -/

/-- No command of GENERATE faults (R240). -/
theorem symbolState_noError (v : Nat) (data : List Byte) :
    (symbolState v data).err = false ∧ (symbolState v data).errCode = .noError := by
  simp [symbolState, drawSymbol, drawMatrix, State.reset]

theorem symbolState_phase (v : Nat) (data : List Byte) : (symbolState v data).phase = .done := putFormat_phase 1 _

theorem symbolState_version (h : v ≤ 4) (data : List Byte) :
    (symbolState v data).ver.toNat = v ∧ moduleCount (symbolState v data) = 17 + 4 * v := by
  simp only [moduleCount, symbolState, drawSymbol, drawMatrix, putFormat_ver, putFormat_size, selectMask_ver,
    selectMask_size, placeData_ver, placeData_size]
  exact buildMatrix_version h _

/-- The format word is that of level L and MASKID (R195). -/
theorem symbolState_fmtReg (v : Nat) (data : List Byte) :
    (symbolState v data).fmtReg = bch15 (BitVec.ofNat 5 (8 + (symbolState v data).maskId.toNat)) := by
  rw [symbolState, drawSymbol, drawMatrix, putFormat_fmtReg, putFormat_maskId, formatValue_one_eq_ofNat]

/-- In DONE without a fault STATUS is the word that step 11 reads (R215, R240). -/
theorem status_of_done (he : s.err = false) (hc : s.errCode = .noError) (hp : s.phase = .done) :
    (status s).toNat = 4 * 2 + 256 * s.ver.toNat + 4096 * s.maskId.toNat := by
  rw [status_toNat, he, hc, hp]
  simp [Phase.code, ErrCode.code]

/-- Settles O60: RESET makes the end state one for all states; each command is admitted in the phase the one before it
leaves; the symbol's items are those that RS.ENC and the pipeline commands leave. -/
theorem generateDrawsTheSymbol : Obligations.GenerateDrawsTheSymbol := by
  refine ⟨fun payload level hlen => ?_, fun payload level => generate_eq_error level⟩
  obtain ⟨v, hv⟩ := exists_selectVersion_eq_ok hlen
  obtain ⟨h₁, h₂⟩ := selectVersion_bounds hv
  have hdata := dataCodewords_length payload v
  have hle : (dataCodewords payload v).length ≤ 100 := by
    obtain ⟨-, -, htotal⟩ := codewordCounts_bounds h₁ h₂
    rw [Config.totalCw] at htotal
    omega
  obtain ⟨he, hcode⟩ := symbolState_noError v (dataCodewords payload v)
  have hphase := symbolState_phase v (dataCodewords payload v)
  obtain ⟨hver, hcount⟩ := symbolState_version h₂ (dataCodewords payload v)
  obtain ⟨hgeometry, hmodule⟩ := symbolState_invariants h₁ h₂ (dataCodewords payload v)
  refine ⟨v, _, symbolState v (dataCodewords payload v), hv, generate_eq_ok level hv, issueAll_generated h₁ h₂ hle,
    he, hphase, hver, hcount, ?_, symbolState_data h₁ h₂ hdata, fun i hi => ?_, symbolState_fmtReg v _,
    fun x hx y hy => ?_⟩
  · rw [status_of_done he hcode hphase, hver]
  · rw [symbolState_block h₁ h₂ hdata, polyEval_append_rsRem _ hi]
  · exact viewModule_of_geometryInv hgeometry he (by simp [hphase]) hx hy
      ((hmodule x hx y hy).2 (by simp [hasData, hphase]))

end Sys2Proof.Machine
end

section
/-! PROOFS. The order of checks, the error state and the way out of it (R230 to R232, R237, R242): with ERR = 0 all 21
commands pass the same checks, a fault writes the error registers only, and every command keeps the pending words. The
invariants at reset and the spec's own words stand behind them. -/

namespace Sys2Proof.Machine

variable {s t : State} {i : Instr} {w : Word}

/-! The order of checks -/

/-- Every listed number is implemented (R41, R203). -/
theorem csr_isSome_of_mem {n : Nat} (h : n ∈ csrNumbers) (s : State) : (csr n s).isSome = true :=
  List.all_eq_true.mp (show csrNumbers.all (fun n => (csr n s).isSome) = true from rfl) n h

/-- With ERR = 0 every command, the four system commands included, is `perform` with the admission table (R236), the
operand table (R233) and its effect. -/
theorem exec_eq_perform_of_err_eq_false (i : Instr) (he : s.err = false) :
    exec i s = perform i (admittedIn i s.phase) (operandError i s) (effectOf i) s := by
  cases i with
  | nop | reset | clrErr =>
    rw [operandError, admittedIn, admittingPhases, perform_runs he]
    rfl
  | csrRd n =>
    by_cases hn : n ∈ csrNumbers
    · obtain ⟨v, hv⟩ := Option.isSome_iff_exists.mp (csr_isSome_of_mem hn s)
      rw [exec_csrRd_of_some hv, operandError, if_pos hn, admittedIn, admittingPhases, perform_runs he, effectOf, hv,
        Option.getD_some]
    · rw [exec_csrRd_of_none (csr_eq_none hn s), operandError, if_neg hn, admittedIn, admittingPhases,
        perform_operand he, perform_operand he]
  | _ => exact exec_eq_perform rfl s

/-- While ERR = 1 a command other than the four system commands is ignored (R232). -/
theorem exec_ignored (hi : executesInError i = false) (he : s.err = true) : exec i s = .next s := by
  rw [exec_eq_perform hi, perform_ignored he]

/-- The word that a command's fault records is the word that decoded to it (R87, R231). -/
theorem encode_eq_of_decode (hw : decode w = .ok i) : encode i = w := (encodeOfDecodeIsTheWord w i hw).2

/-- With ERR = 0 the issue of a command's word makes the checks of R230 in order. -/
theorem issue_eq_perform (hw : decode w = .ok i) (he : s.err = false) :
    issue w s = perform i (admittedIn i s.phase) (operandError i s) (effectOf i) s :=
  (issue_eq_exec hw s).trans (exec_eq_perform_of_err_eq_false i he)

/-- With ERR = 0 a phase that does not admit the command faults with BadPhase (R230 step (3)). -/
theorem issue_badPhase (hw : decode w = .ok i) (he : s.err = false) (ha : admittedIn i s.phase = false) :
    issue w s = .next (raise .badPhase w s) := by
  rw [issue_eq_perform hw he, ha, perform_badPhase he, encode_eq_of_decode hw]

/-- With ERR = 0 an admitted command faults with the code of its operand check (R230 step (4)). -/
theorem issue_operandError (hw : decode w = .ok i) (he : s.err = false) (ha : admittedIn i s.phase = true)
    {c : ErrCode} (hc : operandError i s = some c) : issue w s = .next (raise c w s) := by
  rw [issue_eq_perform hw he, ha, hc, perform_operand he, encode_eq_of_decode hw]

/-- With ERR = 0 an admitted command with legal operands has its effect (R230 step (5)). -/
theorem issue_effect (hw : decode w = .ok i) (he : s.err = false) (ha : admittedIn i s.phase = true)
    (ho : operandError i s = none) : issue w s = .next (effectOf i s) := by
  rw [issue_eq_perform hw he, ha, ho, perform_runs he]

/-- Settles O8: an illegal word is rejected; with ERR = 0 a command is `perform`, whose checks follow one another. -/
theorem checksAreMadeInOrder : Obligations.ChecksAreMadeInOrder := by
  refine ⟨fun w s h => issue_of_illegal h s, fun w i s hw => ⟨fun he hi => ?_, issue_badPhase hw,
    fun he ha c => issue_operandError hw he ha,
    fun he ha ho => ⟨_, issue_effect hw he ha ho, effectOf_err_eq_false i he⟩⟩, fun s he hp => ?_, ?_⟩
  · rw [issue_eq_exec hw, exec_ignored hi he]
  · exact issue_badPhase (i := .mkScore 9) (by decide) he (by rw [hp]; rfl)
  · exact illegalAt_formatA (r := ⟨0x41, "MK.SCORE", 0x41000000, 0xFFFFFF00⟩) (cb := 1) (a := 9)
      (by simp [opcodeMap]) rfl rfl (by decide) (by decide) (by decide)

/-! Faults and the error state -/

/-- An issue that sets ERR is a fault: it raises some code with the issued word (R231). -/
theorem issue_fault (hs : s.err = false) (h : issue w s = .next t) (ht : t.err = true) :
    ∃ c, c ≠ .noError ∧ t = raise c w s := by
  obtain rfl | ⟨i, hw, hi⟩ := issue_cases h
  · exact ⟨.illegalCommand, by decide, rejectWord_ok w hs⟩
  · obtain ⟨he, -⟩ | ⟨c, -, hc, rfl⟩ | ⟨-, rfl⟩ := exec_cases hi
    · simp [hs] at he
    · exact ⟨c, hc, by rw [encode_eq_of_decode hw]⟩
    · simp [effectOf_err_eq_false i hs] at ht

/-- A command that leaves ERR = 1 keeps the code and the word of the fault (R231). -/
theorem exec_keeps_firstFault (hs : s.err = true) (h : exec i s = .next t) (ht : t.err = true) :
    t.errCode = s.errCode ∧ t.errInfo = s.errInfo := by
  obtain ⟨-, rfl⟩ | ⟨c, he, -⟩ | ⟨-, rfl⟩ := exec_cases h
  · exact ⟨rfl, rfl⟩
  · simp [hs] at he
  · obtain ⟨he, -⟩ | ⟨-, hregisters⟩ := effectOf_errorRegisters i s
    · simp [he] at ht
    · exact hregisters

/-- Settles O9: a fault is `raise` with the issued word; in the error state nothing raises. -/
theorem faultSavesOnlyTheErrorRegisters : Obligations.FaultSavesOnlyTheErrorRegisters := by
  refine ⟨fun w s t hs h ht => ?_, fun w s t hs h ht => ?_⟩
  · obtain ⟨c, hc, rfl⟩ := issue_fault hs h ht
    exact ⟨hc, rfl⟩
  · obtain rfl | ⟨i, -, hi⟩ := issue_cases h
    · rw [rejectWord_err w hs]
      exact ⟨rfl, rfl⟩
    · exact exec_keeps_firstFault hs hi ht

/-- Settles O10: the four system commands have no ERR gate; every other command and every illegal word has. -/
theorem errorStateIgnoresAllButFour : Obligations.ErrorStateIgnoresAllButFour := by
  refine fun s hs => ⟨rfl, ⟨_, rfl, rfl⟩, rfl, fun n v => exec_csrRd_of_some, fun n hn => ?_,
    fun i hi => exec_ignored hi hs, fun w hw => ?_, rfl, rfl⟩
  · rw [exec_csrRd_unlisted hn, if_pos hs]
  · rw [issue_of_illegal hw, rejectWord_err w hs]

/-- Of the commands, only CLRERR and RESET have an effect that clears ERR (R232, R237). -/
theorem eq_clrErr_or_reset_of_clears (hi : executesInError i = true) (hs : s.err = true)
    (ht : (effectOf i s).err = false) : i = .clrErr ∨ i = .reset := by
  cases i with
  | clrErr => exact .inl rfl
  | reset => exact .inr rfl
  | nop | csrRd => exact absurd (hs.symm.trans ht) (by decide)
  | _ => cases hi

/-- Settles O11: a fault writes just the registers that CLRERR clears, and clear they were before it. -/
theorem clrErrUndoesAFault : Obligations.ClrErrUndoesAFault := by
  refine ⟨fun w s t hs hinv h ht => ?_, fun s => ⟨_, rfl, rfl⟩, fun i s t hs h ht => ?_⟩
  · obtain ⟨c, -, rfl⟩ := issue_fault hs h ht
    exact congrArg Host.Outcome.next (clearError_eq_self hinv hs)
  · obtain ⟨-, rfl⟩ | ⟨c, he, -⟩ | ⟨hrun, rfl⟩ := exec_cases h
    · simp [hs] at ht
    · simp [hs] at he
    · exact eq_clrErr_or_reset_of_clears (hrun.resolve_right (by simp [safeCommand, hs])) hs ht

/-! No step stops -/

/-- The pending words are no item of R20, and no effect touches them (Log 1). -/
theorem effectOf_pending (i : Instr) (s : State) : (effectOf i s).pending = s.pending := by
  cases i with
  | rsEnc k e => simp [effectOf, encodeBlock]
  | mkSel => simp [effectOf, selectMask]
  | _ => rfl

/-- Every command answers a next state, in every state (R242). -/
theorem exec_answers (i : Instr) (s : State) : ∃ t, exec i s = .next t := by
  cases he : s.err with
  | false =>
    rw [exec_eq_perform_of_err_eq_false i he]
    exact perform_answers ..
  | true =>
    cases i with
    | nop | reset | clrErr => exact ⟨_, rfl⟩
    | csrRd n =>
      by_cases hn : n ∈ csrNumbers
      · obtain ⟨v, hv⟩ := Option.isSome_iff_exists.mp (csr_isSome_of_mem hn s)
        exact ⟨_, exec_csrRd_of_some hv⟩
      · exact ⟨_, exec_csrRd_unlisted hn s⟩
    | _ => exact ⟨s, exec_ignored rfl he⟩

theorem exec_pending (h : exec i s = .next t) : t.pending = s.pending := by
  obtain ⟨-, rfl⟩ | ⟨c, -, -, rfl⟩ | ⟨-, rfl⟩ := exec_cases h
  · rfl
  · exact raise_pending ..
  · exact effectOf_pending i s

/-- Every word answers a next state with the same pending words (R242, Log 1). -/
theorem issue_answers (w : Word) (s : State) : ∃ t, issue w s = .next t ∧ t.pending = s.pending := by
  cases hw : decode w with
  | ok i =>
    obtain ⟨t, ht⟩ := exec_answers i s
    exact ⟨t, (issue_eq_exec hw s).trans ht, exec_pending ht⟩
  | error e =>
    refine ⟨_, issue_of_illegal (by simp [hw]) s, ?_⟩
    unfold rejectWord
    split <;> rfl

/-- Settles O7: with nothing pending the machine waits; else one word leaves the stream and its issue answers. -/
theorem everyStepAnswersANextState : Obligations.EveryStepAnswersANextState := by
  intro s
  cases hp : s.pending with
  | nil => exact ⟨s, step_eq_self hp, hp⟩
  | cons w ws =>
    rw [step_eq_issue hp]
    exact issue_answers w { s with pending := ws }

/-! Reset, and words of the spec -/

theorem errorInv_reset : ErrorInv State.reset := ⟨fun _ => ⟨rfl, rfl⟩, fun h => absurd h (by decide)⟩

/-- Settles O14: in IDLE there is no matrix, and every register is zero. -/
theorem invariantsHoldAtReset : Obligations.InvariantsHoldAtReset :=
  ⟨errorInv_reset, rfl, generatorInv_reset, geometryInv_reset, moduleInv_reset, functionInv_reset,
    scorerInv_of_zero (by decide) (by decide) rfl rfl rfl, formatInv_of_fmtReg_eq_zero (by decide) rfl⟩

/-- Settles O1: the ten words are encodings; the illegal ones fall to their must-be-zero bits or to no row. -/
theorem specWordsDecode : Obligations.SpecWordsDecode := by
  refine ⟨decode_ofNat (i := .mkPred 3 10 20) rfl rfl, decode_ofNat (i := .nop) rfl rfl,
    decode_ofNat (i := .csrRd 31) rfl rfl, decode_ofNat (i := .mkPred 255 255 255) rfl rfl,
    decode_ofNat (i := .dlRd 767) rfl rfl, decode_ofNat (i := .cwWr 2 0x10) rfl rfl,
    decode_ofNat (i := .rsEnc 3 2) rfl rfl, decode_ofNat (i := .modRd 8 13) rfl rfl,
    decode_ofNat (i := .gfMul 3 7) rfl rfl, decode_ofNat (i := .fmtEnc 13) rfl rfl, ?_, ?_⟩
  · simp only [List.forall_mem_cons]
    exact ⟨rfl, rfl, rfl, rfl, List.forall_mem_nil _⟩
  · simp only [List.forall_mem_cons]
    exact ⟨rfl, rfl, rfl, rfl, rfl, rfl, rfl, rfl, List.forall_mem_nil _⟩

end Sys2Proof.Machine
end
